-- ==== Sys2Proof/Word.lean ====
section
/-!
DEFINITION. The word types of the block: command words, limbs, register indices, and the five-limb vector
(spec/00_scope.md R13, R14; spec/10_state.md R20, R21; spec/30_encoding.md R80, R81).
-/

namespace Sys2Proof

/-- A 32-bit word: a command word, or the value of a 32-bit register of the window (R52, R80). -/
abbrev Word := BitVec 32

/-- A limb: an unsigned 64-bit value (R21). -/
abbrev Limb := BitVec 64

/-- The 4-bit unsigned index of a field-element register (R20, R81). -/
abbrev RegIx := BitVec 4

/-- The limb vector (n0, n1, n2, n3, n4) of R14: limb j weighs 2^(52·j). -/
structure Limbs where
  n0 : Limb
  n1 : Limb
  n2 : Limb
  n3 : Limb
  n4 : Limb
  deriving DecidableEq, Repr

/-- The nine column sums c_0 to c_8 of a 5 × 5 limb product, exact (R140, R160). -/
structure Columns where
  c0 : Nat
  c1 : Nat
  c2 : Nat
  c3 : Nat
  c4 : Nat
  c5 : Nat
  c6 : Nat
  c7 : Nat
  c8 : Nat
  deriving DecidableEq, Repr

end Sys2Proof
end

