-- ==== Sys2Proof/Syntax.lean ====
section
/-!
DEFINITION. The commands of the block, one constructor for each row of spec/opcode_table.json (spec/30_encoding.md
R80 to R83). Operands are 4-bit register indices; there are no other operand forms (R81).
-/

namespace Sys2Proof

/-- A legal command (R83). FSQR and FNORM have no RS2 operand: their RS2 field must be 0 (R84). -/
inductive Instr where
  /-- FADD rd, rs1, rs2 (R100). -/
  | fadd (rd rs1 rs2 : RegIx)
  /-- FMUL rd, rs1, rs2 (R161). -/
  | fmul (rd rs1 rs2 : RegIx)
  /-- FSQR rd, rs1 (R163). -/
  | fsqr (rd rs1 : RegIx)
  /-- FNORM rd, rs1 (R120). -/
  | fnorm (rd rs1 : RegIx)
  deriving DecidableEq, Repr

end Sys2Proof
end

