-- ==== Sys2Proof/WellFormed.lean ====
section
/-!
DEFINITION. Which command words are legal (spec/30_encoding.md R84), and the well-formedness of commands as terms.
-/

namespace Sys2Proof

/-- R84: bits 31:16 are 0, and OP is 1 or 2, or OP is 3 or 4 with RS2 = 0. Transcribed by itself, so that the decoder
can be held against it. -/
def legal (w : Word) : Bool :=
  w.extractLsb' 16 16 == 0#16 &&
    (w.extractLsb' 0 4 == 0x1#4 || w.extractLsb' 0 4 == 0x2#4 ||
      ((w.extractLsb' 0 4 == 0x3#4 || w.extractLsb' 0 4 == 0x4#4) && w.extractLsb' 12 4 == 0x0#4))

/-- Every term of `Instr` is well-formed: an index is 4 bits wide by its type and each of its 16 values is legal
(R81), and every combination of registers is legal (R82). The checks that can fail are those on a word (`legal`). -/
def Instr.wellFormed : Instr → Bool
  | .fadd _ _ _ => true
  | .fmul _ _ _ => true
  | .fsqr _ _ => true
  | .fnorm _ _ => true

end Sys2Proof
end

