-- ==== Sys2Proof/Decode.lean ====
section
/-!
DEFINITION. The decoder, total on every 32-bit word (spec/30_encoding.md R80, R83 to R86), and after it the encoder.
-/

namespace Sys2Proof

/-- Why a word is no legal command (R84, R85). -/
inductive IllegalReason where
  /-- One of bits 31:16 is set. -/
  | reservedBits
  /-- OP is 0x0 or 0x5 to 0xF. -/
  | opcode (op : BitVec 4)
  /-- FSQR or FNORM with RS2 ≠ 0. -/
  | rs2NotZero
  deriving DecidableEq, Repr

/-- What a word decodes to. -/
inductive Decoded where
  | command (i : Instr)
  | illegal (why : IllegalReason)
  deriving DecidableEq, Repr

/-- OP, bits [3:0] (R80). -/
def opField (w : Word) : BitVec 4 := w.extractLsb' 0 4

/-- RD, bits [7:4] (R80). -/
def rdField (w : Word) : RegIx := w.extractLsb' 4 4

/-- RS1, bits [11:8] (R80). -/
def rs1Field (w : Word) : RegIx := w.extractLsb' 8 4

/-- RS2, bits [15:12] (R80). -/
def rs2Field (w : Word) : RegIx := w.extractLsb' 12 4

/-- RSV, bits [31:16] (R80). -/
def rsvField (w : Word) : BitVec 16 := w.extractLsb' 16 16

/-- A two-register command: RS2 must be 0 (R84). -/
def decodeTwoReg (w : Word) (i : Instr) : Decoded :=
  if rs2Field w = 0#4 then .command i else .illegal .rs2NotZero

/-- The decoder (R83, R84): a word names exactly one row of the opcode map or is illegal. -/
def decode (w : Word) : Decoded :=
  if rsvField w ≠ 0#16 then .illegal .reservedBits
  else if opField w = 0x1#4 then .command (.fadd (rdField w) (rs1Field w) (rs2Field w))
  else if opField w = 0x2#4 then .command (.fmul (rdField w) (rs1Field w) (rs2Field w))
  else if opField w = 0x3#4 then decodeTwoReg w (.fsqr (rdField w) (rs1Field w))
  else if opField w = 0x4#4 then decodeTwoReg w (.fnorm (rdField w) (rs1Field w))
  else .illegal (.opcode (opField w))

/-- The decoder's answer without the reason of a rejection. -/
def decode? (w : Word) : Option Instr :=
  match decode w with
  | .command i => some i
  | .illegal _ => none

/-- word = OP | (RD << 4) | (RS1 << 8) | (RS2 << 12), with RSV = 0 (R80). -/
def assemble (op : BitVec 4) (rd rs1 rs2 : RegIx) : Word :=
  op.setWidth 32 ||| rd.setWidth 32 <<< 4 ||| rs1.setWidth 32 <<< 8 ||| rs2.setWidth 32 <<< 12

/-- OP of a command (R83). -/
def opcodeOf : Instr → BitVec 4
  | .fadd _ _ _ => 0x1#4
  | .fmul _ _ _ => 0x2#4
  | .fsqr _ _ => 0x3#4
  | .fnorm _ _ => 0x4#4

/-- The command word of a command (R80, R83, R87: RS2 is 0 in FSQR and FNORM). -/
def encode (i : Instr) : Word :=
  match i with
  | .fadd rd rs1 rs2 => assemble (opcodeOf i) rd rs1 rs2
  | .fmul rd rs1 rs2 => assemble (opcodeOf i) rd rs1 rs2
  | .fsqr rd rs1 => assemble (opcodeOf i) rd rs1 0#4
  | .fnorm rd rs1 => assemble (opcodeOf i) rd rs1 0#4

/-- The host's question about a word of the opcode table: a command is one 32-bit word (R86), the data of a CMD write
and not bytes of a memory (R70), so the table's bit numbers are the word's own. Bits above the row's `nbits` are 0. -/
def decodeTableWord (nbits w : Nat) : Option Instr :=
  if w % 2 ^ nbits < 2 ^ 32 then decode? (BitVec.ofNat 32 (w % 2 ^ nbits)) else none

end Sys2Proof
end

