-- ==== Sys2Proof/Config.lean ====
section
/-!
DEFINITION. What is fixed for the block: the field constants (spec/00_scope.md R10 to R12), the parameters (R8), the
hardwired registers (spec/10_state.md R28 to R30), and the open parameters and free values, which have no body.
-/

namespace Sys2Proof.Config

/-- The field prime (R10). -/
def p : Nat := 2 ^ 256 - 2 ^ 32 - 977

/-- The lowest 52 bits of p (R11). -/
def pLo52 : Limb := 0xFFFFEFFFFFC2F#64

/-- 2^52 − 1, each of p's limbs 1, 2 and 3 (R11). -/
def pMid52 : Limb := 0xFFFFFFFFFFFFF#64

/-- 2^48 − 1, p's top 48 bits (R11). -/
def pHi48 : Limb := 0x0FFFFFFFFFFFF#64

/-- The reduction constant r = 2^256 mod p (R12). -/
def r : Nat := 0x1000003D1

/-- 2^260 mod p = 16·r, the per-column constant (R12). It is a constant of the spec that the exact definition of
REDUCE does not need (R142, R146). -/
def k260 : Nat := 0x1000003D10

/-- NREG, the number of field-element registers (R8, R20). -/
def nreg : Nat := 16

/-- MAG_MAX, the largest magnitude a register may hold (R8). -/
def magMax : Nat := 32

/-- MULMAG_MAX, the largest magnitude FMUL and FSQR accept (R8, R166). -/
def mulMagMax : Nat := 8

/-- ID, hardwired (R28). -/
def id : Word := 0x53324B31#32

/-- VERSION, hardwired: MINOR 1, MAJOR 0 (R29). -/
def version : Word := 0x00000001#32

/-- PARAM, hardwired: NREG, MAG_MAX, MULMAG_MAX, eight zero bits (R30). -/
def param : Word := 0x00082010#32

/-- BASE, the platform's base address of the window: an open parameter (R51, V9; log entry 16). -/
opaque base : Nat

/-- LAT(op), the cycles from a command's acceptance to its completion: an open parameter, a function of OP alone
(R8, R238, R239, V8). Nothing in the model reads it, as R8 and R238 ask (log entry 17). -/
opaque lat : BitVec 4 → Nat

/-- FREE VALUE: the bits of limb `j` of FE[`i`] between the `epoch`-th platform reset and the first write of them
(R38, R63, V1, V2). No body, so no proof can know a bit of it (log entry 1). -/
opaque unwrittenLimb : (epoch : Nat) → (i : RegIx) → (j : Fin 5) → Limb

end Sys2Proof.Config
end

