-- ==== Sys2Proof/Machine/Operands.lean ====
section
/-!
DEFINITION. The operand of every command, a whole field element (spec/30_encoding.md R81): the value of a limb vector,
its magnitude bound and canonical form (spec/00_scope.md R14, R15), and the fold F (R19).
-/

namespace Sys2Proof.Machine

/-- val(n) = n0 + n1·2^52 + n2·2^104 + n3·2^156 + n4·2^208 (R14). -/
def valueOf (n : Limbs) : Nat :=
  n.n0.toNat + n.n1.toNat * 2 ^ 52 + n.n2.toNat * 2 ^ 104 + n.n3.toNat * 2 ^ 156 + n.n4.toNat * 2 ^ 208

/-- limbs(v) for 0 ≤ v < 2^256: v cut at bits 52, 104, 156 and 208 (R14). -/
def limbsOf (v : Nat) : Limbs :=
  { n0 := BitVec.ofNat 64 (v % 2 ^ 52)
    n1 := BitVec.ofNat 64 (v / 2 ^ 52 % 2 ^ 52)
    n2 := BitVec.ofNat 64 (v / 2 ^ 104 % 2 ^ 52)
    n3 := BitVec.ofNat 64 (v / 2 ^ 156 % 2 ^ 52)
    n4 := BitVec.ofNat 64 (v / 2 ^ 208 % 2 ^ 48) }

/-- bound(M)_j for j = 0..3 (R15). -/
def lowBound (m : Nat) : Nat := m * (2 ^ 53 - 1)

/-- bound(M)_4 (R15). -/
def topBound (m : Nat) : Nat := m * (2 ^ 49 - 1)

/-- n has magnitude M: n_j ≤ bound(M)_j for every j (R15). -/
abbrev HasMagnitude (m : Nat) (n : Limbs) : Prop :=
  n.n0.toNat ≤ lowBound m ∧ n.n1.toNat ≤ lowBound m ∧ n.n2.toNat ≤ lowBound m ∧ n.n3.toNat ≤ lowBound m ∧
    n.n4.toNat ≤ topBound m

/-- Canonical(n): n0..n3 < 2^52, n4 < 2^48 and val(n) < p (R15). -/
abbrev Canonical (n : Limbs) : Prop :=
  n.n0.toNat < 2 ^ 52 ∧ n.n1.toNat < 2 ^ 52 ∧ n.n2.toNat < 2 ^ 52 ∧ n.n3.toNat < 2 ^ 52 ∧ n.n4.toNat < 2 ^ 48 ∧
    valueOf n < Config.p

/-- The fold F(x) = (x mod 2^256) + r·(x >> 256), which keeps x mod p (R19). -/
def fold (x : Nat) : Nat := x % 2 ^ 256 + Config.r * (x / 2 ^ 256)

end Sys2Proof.Machine
end

