-- ==== Sys2Proof/Machine/State.lean ====
section
/-!
DEFINITION. The state of the block as plain data, its stop reasons, and the state after reset (spec/10_state.md).
-/

namespace Sys2Proof.Machine

/-- The cause codes of STATUS.CAUSE, by name (R201). Codes 6 to 15 do not exist here, as they are never reported (V7). -/
inductive Cause where
  /-- Code 0: no fault recorded. -/
  | none
  /-- Code 1: a CMD write of a word that is not legal. -/
  | illegalCmd
  /-- Code 2: a source register has VALID = 0. -/
  | uninitSrc
  /-- Code 3: a source of FMUL or FSQR has MAG > MULMAG_MAX. -/
  | mulMagnitude
  /-- Code 4: the magnitudes of FADD's sources sum above MAG_MAX. -/
  | addMagnitude
  /-- Code 5: the check of a TAG write fails. -/
  | tagInvalid
  deriving DecidableEq, Repr

/-- One limb: its bits, and for each 32-bit half whether it was written since reset (the model-only bits of R36; a limb
counts as written when both halves are, R63; log entry 9). The bits of a half not written stand for nothing: reads of
them go through `LimbCell.read`, which gives a free value. -/
structure LimbCell where
  bits : Limb
  loWritten : Bool
  hiWritten : Bool
  deriving DecidableEq, Repr

/-- A field-element register: five limbs and the tag MAG, NORM, VALID (R20, R22). -/
structure FeReg where
  n : Vector LimbCell 5
  mag : BitVec 6
  norm : Bool
  valid : Bool
  deriving DecidableEq, Repr

/-- What the world outside does to the block: a bus access at a 12-bit offset of the window, `width` bits wide (R16,
R51, R55), or the platform's reset (R230). Of a written value only the low `width` bits count. -/
inductive HostAction where
  | read (off : BitVec 12) (width : Nat)
  | write (off : BitVec 12) (width : Nat) (value : BitVec 64)
  | reset
  deriving DecidableEq, Repr

/-- When an event reaches the block, if a command is in flight: while it still executes, or after its completion
(R65, R72; log entry 4). Without a command in flight the mark says nothing. -/
inductive Arrival where
  | whileBusy
  | afterCompletion
  deriving DecidableEq, Repr

/-- One event at the block's port. -/
structure HostEvent where
  arrival : Arrival
  action : HostAction
  deriving DecidableEq, Repr

/-- What the host gets back for one access (R60, R63, R240). -/
inductive Response where
  /-- The value of a read, zero-extended to 64 bits. -/
  | data (value : BitVec 64)
  /-- A write was accepted (also one that is ignored or discarded, R59, R205). -/
  | accepted
  /-- The error response: no data, no state change (R60). -/
  | busError
  deriving DecidableEq, Repr

/-- The state (R20 to R36). `epoch`, `host` and `responses` are the model's own fields (log entries 2, 3, 5). -/
structure State where
  /-- FE[0] to FE[15] (R20). -/
  fe : Vector FeReg 16
  /-- STATUS.BUSY (R32, R35). -/
  busy : Bool
  /-- STATUS.FAULT, sticky (R32). -/
  fault : Bool
  /-- STATUS.CAUSE (R32, R201). -/
  cause : Cause
  /-- STATUS.FREG (R32, R201). -/
  freg : RegIx
  /-- FAULT_CMD (R33). -/
  faultCmd : Word
  /-- INFLIGHT: empty, or the command being executed (R35). -/
  inflight : Option Word
  /-- Platform resets so far: keys the free values of unwritten limbs. -/
  epoch : Nat
  /-- The events still to come, next first: the input of a run (R26, R37). -/
  host : List HostEvent
  /-- The responses given so far, oldest first (R240). -/
  responses : List Response
  deriving DecidableEq, Repr

/-- The reasons the model stops. -/
inductive Fault where
  /-- The spec's model fault "unwritten limbs" (R62, V3): raised by a write to FE[`i`].TAG while some limb of FE[`i`] is
  not written since reset, because the check would read unspecified bits. Safe: the model stops where the hardware goes
  on with bits nobody knows. -/
  | unwrittenLimbs (i : RegIx)
  deriving DecidableEq, Repr

/-- The reasons the model refuses. -/
inductive Refusal where
  /-- A command without a meaning in `exec`; no arm of it is left. Safe: the model stops. -/
  | notModelled (mnemonic : String)
  deriving DecidableEq, Repr

/-- A limb after reset: written bits clear, and a placeholder of 0 that no read shows (R38; log entry 1). -/
def LimbCell.atReset : LimbCell := { bits := 0#64, loWritten := false, hiWritten := false }

/-- A field-element register after reset: tag cleared, limbs unspecified (R38). -/
def FeReg.atReset : FeReg :=
  { n := Vector.replicate 5 LimbCell.atReset, mag := 0#6, norm := false, valid := false }

/-- The state right after reset (R38). -/
def State.reset : State :=
  { fe := Vector.replicate 16 FeReg.atReset
    busy := false
    fault := false
    cause := .none
    freg := 0#4
    faultCmd := 0#32
    inflight := .none
    epoch := 0
    host := []
    responses := [] }

end Sys2Proof.Machine
end

