-- ==== Sys2Proof/Machine/Flags.lean ====
section
/-!
DEFINITION. The flag-like state of the block (spec/10_state.md R27): the words software reads STATUS and TAG as (R32,
R34), the cause codes (spec/60_exceptions.md R201), and the check of a TAG write (spec/20_memory.md R62). No command
sets an arithmetic flag (R27).
-/

namespace Sys2Proof.Machine

/-- The 4-bit code of a cause (R201). -/
def causeCode : Cause → BitVec 4
  | .none => 0#4
  | .illegalCmd => 1#4
  | .uninitSrc => 2#4
  | .mulMagnitude => 3#4
  | .addMagnitude => 4#4
  | .tagInvalid => 5#4

/-- A one-bit field of a 32-bit register. -/
def bit32 (b : Bool) : Word := if b then 1#32 else 0#32

/-- STATUS as it is read: BUSY [0], FAULT [1], CAUSE [7:4], FREG [11:8], all other bits 0 (R32). -/
def statusWord (busy fault : Bool) (cause : Cause) (freg : RegIx) : Word :=
  bit32 busy ||| bit32 fault <<< 1 ||| (causeCode cause).setWidth 32 <<< 4 ||| freg.setWidth 32 <<< 8

/-- TAG as it is read: zext_32(VALID << 16 | NORM << 8 | MAG) (R34, R63). -/
def tagWord (mag : BitVec 6) (norm valid : Bool) : Word :=
  bit32 valid <<< 16 ||| bit32 norm <<< 8 ||| mag.setWidth 32

/-- The magnitude a TAG write requests, t[5:0] (R62). -/
def tagMag (t : Word) : BitVec 6 := t.extractLsb' 0 6

/-- The normalized flag a TAG write requests, t[8] (R62). -/
def tagNorm (t : Word) : Bool := t.getLsbD 8

/-- The check of a TAG write of `t` on the limbs `n` (R62): 1 ≤ m ≤ MAG_MAX, n has magnitude m, and if z = 1 then m = 1
and Canonical(n). -/
abbrev TagCheck (n : Limbs) (t : Word) : Prop :=
  1 ≤ (tagMag t).toNat ∧ (tagMag t).toNat ≤ Config.magMax ∧ HasMagnitude (tagMag t).toNat n ∧
    (tagNorm t = true → (tagMag t).toNat = 1 ∧ Canonical n)

end Sys2Proof.Machine
end

