-- ==== Sys2Proof/Machine/Ops.lean ====
section
/-!
DEFINITION. The named operations on the state: the register file (spec/10_state.md R20 to R24, R36; spec/20_memory.md
R61, R63), recording a fault (spec/60_exceptions.md R203) and completing a command (spec/20_memory.md R64). The block
has no memory (R50), no trap entry beyond the recording and no return from a fault (R207, R208).
-/

namespace Sys2Proof.Machine

/-- What a step or a command answers. -/
abbrev Result := Host.Outcome State Fault Refusal

/-! ### The register file -/

/-- FE[i] as stored. -/
def State.feReg (s : State) (i : RegIx) : FeReg := s.fe[i.toNat]'i.isLt

/-- The state with FE[i] replaced. -/
def State.setFeReg (s : State) (i : RegIx) (x : FeReg) : State := { s with fe := s.fe.set i.toNat x i.isLt }

/-- Bits 31:0 of a limb (R55). -/
def loHalf (v : Limb) : Word := v.extractLsb' 0 32

/-- Bits 63:32 of a limb (R55). -/
def hiHalf (v : Limb) : Word := v.extractLsb' 32 32

/-- The limb of two halves (R57). -/
def joinHalves (hi lo : Word) : Limb := hi ++ lo

/-- The bits of a limb a reader sees: each half as it was written since reset, else from the free value `draw`
(R63, V2). -/
def LimbCell.read (c : LimbCell) (draw : Limb) : Limb :=
  joinHalves (if c.hiWritten then hiHalf c.bits else hiHalf draw) (if c.loWritten then loHalf c.bits else loHalf draw)

/-- The written-since-reset bit of a limb: both halves are written (R63). -/
def LimbCell.written (c : LimbCell) : Bool := c.loWritten && c.hiWritten

/-- A limb written whole. -/
def LimbCell.ofLimb (v : Limb) : LimbCell := { bits := v, loWritten := true, hiWritten := true }

/-- A limb after a write of its bits 31:0. -/
def LimbCell.withLo (c : LimbCell) (v : Word) : LimbCell :=
  { c with bits := joinHalves (hiHalf c.bits) v, loWritten := true }

/-- A limb after a write of its bits 63:32. -/
def LimbCell.withHi (c : LimbCell) (v : Word) : LimbCell :=
  { c with bits := joinHalves v (loHalf c.bits), hiWritten := true }

/-- n_j of FE[i] as a reader sees it. Every read of a limb, by a command or by the host, is this one. -/
def State.limb (s : State) (i : RegIx) (j : Fin 5) : Limb :=
  ((s.feReg i).n[j]).read (Config.unwrittenLimb s.epoch i j)

/-- FE[i].n, the five limbs (R16). -/
def State.limbs (s : State) (i : RegIx) : Limbs :=
  { n0 := s.limb i 0, n1 := s.limb i 1, n2 := s.limb i 2, n3 := s.limb i 3, n4 := s.limb i 4 }

/-- FE[i].MAG (R22). -/
def State.mag (s : State) (i : RegIx) : BitVec 6 := (s.feReg i).mag

/-- FE[i].NORM (R22). -/
def State.norm (s : State) (i : RegIx) : Bool := (s.feReg i).norm

/-- FE[i].VALID (R22). -/
def State.valid (s : State) (i : RegIx) : Bool := (s.feReg i).valid

/-- Are all five limbs of FE[i] written since reset (R36, R62)? -/
def State.allWritten (s : State) (i : RegIx) : Bool :=
  (s.feReg i).n[0].written && (s.feReg i).n[1].written && (s.feReg i).n[2].written && (s.feReg i).n[3].written &&
    (s.feReg i).n[4].written

/-- The five limbs as stored after a write of all of them. -/
def cellsOf (n : Limbs) : Vector LimbCell 5 :=
  #v[.ofLimb n.n0, .ofLimb n.n1, .ofLimb n.n2, .ofLimb n.n3, .ofLimb n.n4]

/-- `FE[i] <- (n, mag, norm)`: writes limbs, MAG and NORM and sets VALID to 1 in one step (R16). -/
def State.writeFe (s : State) (i : RegIx) (n : Limbs) (mag : BitVec 6) (norm : Bool) : State :=
  s.setFeReg i { n := cellsOf n, mag := mag, norm := norm, valid := true }

/-- FE[i].VALID, MAG, NORM <- 0 (R61, R62). -/
def State.clearTag (s : State) (i : RegIx) : State :=
  s.setFeReg i { s.feReg i with mag := 0#6, norm := false, valid := false }

/-- FE[i].MAG <- mag; FE[i].NORM <- norm; FE[i].VALID <- 1, the limbs left alone (R62). -/
def State.setTag (s : State) (i : RegIx) (mag : BitVec 6) (norm : Bool) : State :=
  s.setFeReg i { s.feReg i with mag := mag, norm := norm, valid := true }

/-- A host write to limb n_j of FE[i]: the limb changes and the tag is cleared in one step (R61). -/
def State.writeCell (s : State) (i : RegIx) (j : Fin 5) (c : LimbCell) : State :=
  s.setFeReg i { n := (s.feReg i).n.set j.val c j.isLt, mag := 0#6, norm := false, valid := false }

/-! ### Faults and completion -/

/-- `raise Fault(cause, freg, info)`: recorded if none is recorded yet; the first fault is kept (R203). This is the
one way the block takes a fault; it changes no register, no mode and no control (R204, R207). -/
def State.raiseFault (s : State) (cause : Cause) (freg : RegIx) (info : Word) : State :=
  if s.fault then s else { s with fault := true, cause := cause, freg := freg, faultCmd := info }

/-- Acceptance of a command word: INFLIGHT <- w, STATUS.BUSY <- 1 (R64). -/
def State.accept (s : State) (w : Word) : State := { s with inflight := some w, busy := true }

/-- Completion of a command: INFLIGHT <- empty, STATUS.BUSY <- 0 (R64). -/
def State.complete (s : State) : State := { s with inflight := none, busy := false }

/-- A command that faults: the fault is recorded and the command completes at once, with no other effect
(R16, R203, R204). -/
def commandFault (s : State) (cause : Cause) (freg : RegIx) (w : Word) : Result :=
  .next (s.raiseFault cause freg w).complete

/-- A command that succeeds: its destination is written and the command completes (R16, R64). -/
def commandWrite (s : State) (rd : RegIx) (n : Limbs) (mag : BitVec 6) (norm : Bool) : Result :=
  .next (s.writeFe rd n mag norm).complete

/-- `if FE[i].VALID = 0: raise Fault(2, i, w)`, else go on with `rest` (R100, R120, R161, R163). -/
def requireValid (s : State) (i : RegIx) (w : Word) (rest : Result) : Result :=
  if s.valid i then rest else commandFault s .uninitSrc i w

/-- `if FE[i].MAG > MULMAG_MAX: raise Fault(3, i, w)`, else go on with `rest` (R161, R163). -/
def requireMulMag (s : State) (i : RegIx) (w : Word) (rest : Result) : Result :=
  if (s.mag i).toNat > Config.mulMagMax then commandFault s .mulMagnitude i w else rest

/-- The state with these events to come. -/
def State.setHost (s : State) (es : List HostEvent) : State := { s with host := es }

/-- The one reset, driven by the platform (R230): every piece of state at its value of R38, a command in flight
abandoned, the limbs unspecified afresh. What is outside the block, the events to come and the responses already given,
stays (log entries 2, 14). -/
def State.platformReset (s : State) : State :=
  { State.reset with epoch := s.epoch + 1, host := s.host, responses := s.responses }

end Sys2Proof.Machine
end

