-- ==== Sys2Proof/Machine/LimbAdder.lean ====
section
/-!
DEFINITION. limb_adder_radix2_52: FADD (spec/40_limb_adder.md).
-/

namespace Sys2Proof.Machine

/-- Five independent unsigned 64-bit lanes, no carry between lanes (R100, R104). No lane wraps for sources within
their magnitudes (R101); log entry 12. -/
def addLimbs (a b : Limbs) : Limbs :=
  { n0 := a.n0 + b.n0, n1 := a.n1 + b.n1, n2 := a.n2 + b.n2, n3 := a.n3 + b.n3, n4 := a.n4 + b.n4 }

/-- `if m > MAG_MAX: raise Fault(4, d, w)` with m = ma + mb, else go on (R100). -/
def requireAddMag (s : State) (rd rs1 rs2 : RegIx) (w : Word) (rest : Result) : Result :=
  if (s.mag rs1).toNat + (s.mag rs2).toNat > Config.magMax then commandFault s .addMagnitude rd w else rest

/-- FADD rd, rs1, rs2 (R100; the order of the checks is R206). -/
def execFadd (rd rs1 rs2 : RegIx) (s : State) : Result :=
  let w := encode (.fadd rd rs1 rs2)
  requireValid s rs1 w <|
    requireValid s rs2 w <|
      requireAddMag s rd rs1 rs2 w <|
        commandWrite s rd (addLimbs (s.limbs rs1) (s.limbs rs2))
          (BitVec.ofNat 6 ((s.mag rs1).toNat + (s.mag rs2).toNat)) false

end Sys2Proof.Machine
end

