-- ==== Sys2Proof/Machine/Reduce.lean ====
section
/-!
DEFINITION. barrett_reduce_secp256k1: REDUCE, the fold by 2^256 ≡ r (spec/42_reduce.md). It has no command of its own
and no state (R140); it is not a Barrett reduction (R147).
-/

namespace Sys2Proof.Machine

/-- V = Σ c_i·2^(52·i), the exact product value (R142). -/
def columnValue (c : Columns) : Nat :=
  c.c0 + c.c1 * 2 ^ 52 + c.c2 * 2 ^ 104 + c.c3 * 2 ^ 156 + c.c4 * 2 ^ 208 + c.c5 * 2 ^ 260 + c.c6 * 2 ^ 312 +
    c.c7 * 2 ^ 364 + c.c8 * 2 ^ 416

/-- `while y >= 2^256: y = F(y)`, at most `fuel` times (R142). -/
def foldWhile : (fuel : Nat) → Nat → Nat
  | 0, y => y
  | fuel + 1, y => if 2 ^ 256 ≤ y then foldWhile fuel (fold y) else y

/-- REDUCE(c) = limbs(y), where the loop of R142 ends after at most three folds (R144). -/
def reduce (c : Columns) : Limbs := limbsOf (foldWhile 3 (columnValue c))

end Sys2Proof.Machine
end

