-- ==== Sys2Proof/Machine/Multiplier.lean ====
section
/-!
DEFINITION. modular_multiplier_secp256k1 and modular_squarer_secp256k1: FMUL and FSQR
(spec/43_multiplier_squarer.md).
-/

namespace Sys2Proof.Machine

/-- The nine column sums c_i = Σ_{j+k=i} a_j·b_k, exact (R160). -/
def cols (a b : Limbs) : Columns :=
  let a0 := a.n0.toNat
  let a1 := a.n1.toNat
  let a2 := a.n2.toNat
  let a3 := a.n3.toNat
  let a4 := a.n4.toNat
  let b0 := b.n0.toNat
  let b1 := b.n1.toNat
  let b2 := b.n2.toNat
  let b3 := b.n3.toNat
  let b4 := b.n4.toNat
  { c0 := a0 * b0
    c1 := a0 * b1 + a1 * b0
    c2 := a0 * b2 + a1 * b1 + a2 * b0
    c3 := a0 * b3 + a1 * b2 + a2 * b1 + a3 * b0
    c4 := a0 * b4 + a1 * b3 + a2 * b2 + a3 * b1 + a4 * b0
    c5 := a1 * b4 + a2 * b3 + a3 * b2 + a4 * b1
    c6 := a2 * b4 + a3 * b3 + a4 * b2
    c7 := a3 * b4 + a4 * b3
    c8 := a4 * b4 }

/-- The square's column sums, with the cross terms doubled (R162). -/
def sqcols (a : Limbs) : Columns :=
  let a0 := a.n0.toNat
  let a1 := a.n1.toNat
  let a2 := a.n2.toNat
  let a3 := a.n3.toNat
  let a4 := a.n4.toNat
  { c0 := a0 * a0
    c1 := 2 * (a0 * a1)
    c2 := 2 * (a0 * a2) + a1 * a1
    c3 := 2 * (a0 * a3 + a1 * a2)
    c4 := 2 * (a0 * a4 + a1 * a3) + a2 * a2
    c5 := 2 * (a1 * a4 + a2 * a3)
    c6 := 2 * (a2 * a4) + a3 * a3
    c7 := 2 * (a3 * a4)
    c8 := a4 * a4 }

/-- FMUL rd, rs1, rs2 (R161; the order of the checks is R206). -/
def execFmul (rd rs1 rs2 : RegIx) (s : State) : Result :=
  let w := encode (.fmul rd rs1 rs2)
  requireValid s rs1 w <|
    requireValid s rs2 w <|
      requireMulMag s rs1 w <|
        requireMulMag s rs2 w <|
          commandWrite s rd (reduce (cols (s.limbs rs1) (s.limbs rs2))) 1#6 false

/-- FSQR rd, rs1 (R163). -/
def execFsqr (rd rs1 : RegIx) (s : State) : Result :=
  let w := encode (.fsqr rd rs1)
  requireValid s rs1 w <|
    requireMulMag s rs1 w <|
      commandWrite s rd (reduce (sqcols (s.limbs rs1))) 1#6 false

end Sys2Proof.Machine
end

