-- ==== Sys2Proof/Machine/Normalizer.lean ====
section
/-!
DEFINITION. magnitude_normalizer: the function N and the command FNORM (spec/41_normalizer.md). N is written on 64-bit
limbs, in which it is exactly computable for every magnitude a register may hold (R125; log entry 12).
-/

namespace Sys2Proof.Machine

/-- 2^52 − 1, the mask of limbs 0 to 3 (R122). -/
def mask52 : Limb := 0xFFFFFFFFFFFFF#64

/-- 2^48 − 1, the mask of limb 4 in step 1 (R121). -/
def mask48 : Limb := 0xFFFFFFFFFFFF#64

/-- r as a limb. -/
def rLimb : Limb := BitVec.ofNat 64 Config.r

/-- N, step 1: fold the bits of weight 2^256 and above into n0 (R121). -/
def foldTop (n : Limbs) : Limbs :=
  let x := n.n4 >>> 48
  { n with n0 := n.n0 + x * rLimb, n4 := n.n4 &&& mask48 }

/-- The carry pass of steps 2 and 4: carries move from limb j to limb j + 1, limbs 0 to 3 are masked (R122, R124). -/
def carryPass (n : Limbs) : Limbs :=
  let n1 := n.n1 + n.n0 >>> 52
  let n2 := n.n2 + n1 >>> 52
  let n3 := n.n3 + n2 >>> 52
  let n4 := n.n4 + n3 >>> 52
  { n0 := n.n0 &&& mask52, n1 := n1 &&& mask52, n2 := n2 &&& mask52, n3 := n3 &&& mask52, n4 := n4 }

/-- A boolean as the limb 0 or 1. -/
def bitLimb (b : Bool) : Limb := (BitVec.ofBool b).setWidth 64

/-- N, step 3: the one bit x, 1 exactly when val ≥ p, formed without a branch (R123). `m` is taken from the masked
limbs (R122). -/
def exceedsP (n : Limbs) : Limb :=
  let m := n.n1 &&& n.n2 &&& n.n3
  (n.n4 >>> 48 &&& 1#64) ||| bitLimb (n.n4 == Config.pHi48 && m == Config.pMid52 && Config.pLo52 ≤ n.n0)

/-- N, step 4: add x·r, propagate carries again, clear bit 48 of limb 4 (R124). -/
def subtractP (n : Limbs) (x : Limb) : Limbs :=
  let c := carryPass { n with n0 := n.n0 + x * rLimb }
  { c with n4 := c.n4 &&& ~~~(1#64 <<< 48) }

/-- N (R121 to R124). -/
def normalizeLimbs (n : Limbs) : Limbs :=
  let c := carryPass (foldTop n)
  subtractP c (exceedsP c)

/-- FNORM rd, rs1 (R120). -/
def execFnorm (rd rs1 : RegIx) (s : State) : Result :=
  requireValid s rs1 (encode (.fnorm rd rs1)) <|
    commandWrite s rd (normalizeLimbs (s.limbs rs1)) 1#6 true

end Sys2Proof.Machine
end

