-- ==== Sys2Proof/Machine/Dispatch.lean ====
section
/-!
DEFINITION. exec: one arm per command, each one call of its meaning (spec/30_encoding.md R83).
-/

namespace Sys2Proof.Machine

/-- The rule of a command's opcode, with the command's completion (R64, R83). -/
def exec (i : Instr) (s : State) : Host.Outcome State Fault Refusal :=
  match i with
  | .fadd rd rs1 rs2 => Sys2Proof.Machine.execFadd rd rs1 rs2 s
  | .fmul rd rs1 rs2 => Sys2Proof.Machine.execFmul rd rs1 rs2 s
  | .fsqr rd rs1 => Sys2Proof.Machine.execFsqr rd rs1 s
  | .fnorm rd rs1 => Sys2Proof.Machine.execFnorm rd rs1 s

end Sys2Proof.Machine
end

