-- ==== Sys2Proof/Machine/Window.lean ====
section
/-!
DEFINITION. The register window: which access reaches which register, what a read returns and what a write does
(spec/20_memory.md R51 to R64).
-/

namespace Sys2Proof.Machine

/-- The part of a limb an access covers: all 64 bits, bits 31:0, or bits 63:32 (R55). -/
inductive Part where
  | whole
  | lo
  | hi
  deriving DecidableEq, Repr

/-- The register an access reaches (R52). -/
inductive Target where
  | id
  | version
  | param
  | cmd
  | status
  | faultCmd
  | limb (i : RegIx) (j : Fin 5) (part : Part)
  | tag (i : RegIx)
  deriving DecidableEq, Repr

/-! ### The map -/

/-- The offset of an address on the host's bus, if it lies in the 4096 bytes from BASE; the block places nothing
outside its window (R51; log entry 16). -/
def offsetOfAddress (a : Nat) : Option (BitVec 12) :=
  if Config.base ≤ a ∧ a < Config.base + 4096 then some (BitVec.ofNat 12 (a - Config.base)) else none

/-- The offset of limb n_j of FE[i]: 0x100 + 0x40·i + 8·j (R52, R53). -/
def limbOffset (i : RegIx) (j : Fin 5) : BitVec 12 := BitVec.ofNat 12 (0x100 + 0x40 * i.toNat + 8 * j.val)

/-- The offset of FE[i].TAG: 0x128 + 0x40·i (R52, R53). -/
def tagOffset (i : RegIx) : BitVec 12 := BitVec.ofNat 12 (0x128 + 0x40 * i.toNat)

/-- The limb at byte `k` of a register's 64 bytes, taking the given part of it. -/
def limbAt (i : RegIx) (k : Nat) (part : Part) : Option Target :=
  if h : k / 8 < 5 then some (.limb i ⟨k / 8, h⟩ part) else none

/-- A 32-bit access at byte `k` (a multiple of 4) of FE[i]'s 64 bytes: a limb half, TAG, or reserved (R53, R54, R55). -/
def resolveFe32 (i : RegIx) (k : Nat) : Option Target :=
  if k = 0x28 then some (.tag i)
  else if k % 8 = 0 then limbAt i k .lo
  else limbAt i k .hi

/-- The FE register whose 64 bytes hold the offset `o`, 0x100 ≤ o < 0x500 (R53). -/
def feIndex (o : Nat) : RegIx := BitVec.ofNat 4 ((o - 0x100) / 0x40)

/-- The byte within the 64 bytes of that register (R53). -/
def feByte (o : Nat) : Nat := (o - 0x100) % 0x40

/-- An aligned 32-bit access (R52, R54). -/
def resolve32 (o : Nat) : Option Target :=
  if o = 0x000 then some .id
  else if o = 0x004 then some .version
  else if o = 0x008 then some .param
  else if o = 0x010 then some .cmd
  else if o = 0x014 then some .status
  else if o = 0x018 then some .faultCmd
  else if 0x100 ≤ o ∧ o < 0x500 then resolveFe32 (feIndex o) (feByte o)
  else none

/-- An aligned 64-bit access: only a limb takes one (R55). -/
def resolve64 (o : Nat) : Option Target :=
  if 0x100 ≤ o ∧ o < 0x500 then limbAt (feIndex o) (feByte o) .whole else none

/-- The register an access of `width` bits at offset `off` reaches; `none` is BusError: a reserved offset (R54), a width
the register does not take (R55) or a misaligned access (R56). -/
def resolve (off : BitVec 12) (width : Nat) : Option Target :=
  if width = 32 ∧ off.toNat % 4 = 0 then resolve32 off.toNat
  else if width = 64 ∧ off.toNat % 8 = 0 then resolve64 off.toNat
  else none

/-! ### Reads -/

/-- The addressed part of a limb, zero-extended to 64 bits (R57, R63). -/
def partOf (v : Limb) : Part → BitVec 64
  | .whole => v
  | .lo => (loHalf v).setWidth 64
  | .hi => (hiHalf v).setWidth 64

/-- The value a read returns, zero-extended to 64 bits; it changes nothing (R28 to R34, R58, R59, R63). -/
def readTarget (s : State) : Target → BitVec 64
  | .id => Config.id.setWidth 64
  | .version => Config.version.setWidth 64
  | .param => Config.param.setWidth 64
  | .cmd => 0#64
  | .status => (statusWord s.busy s.fault s.cause s.freg).setWidth 64
  | .faultCmd => s.faultCmd.setWidth 64
  | .limb i j part => partOf (s.limb i j) part
  | .tag i => (tagWord (s.mag i) (s.norm i) (s.valid i)).setWidth 64

/-- Within an access at offset `off`, the byte at `off + k` carries bits [8k+7:8k] of the value (R57). -/
def laneByte (v : BitVec 64) (k : Nat) : BitVec 8 := v.extractLsb' (8 * k) 8

/-- One byte of the window as the host sees it, through the aligned 32-bit access that holds it; `none` where that
access ends in BusError. The block has no other memory (R50). -/
def windowByte (s : State) (off : BitVec 12) : Option (BitVec 8) :=
  match resolve (off &&& 0xFFC#12) 32 with
  | some t => some (laneByte (readTarget s t) (off.toNat % 4))
  | none => none

/-! ### Writes -/

/-- The state with a response given to the host. -/
def State.respond (s : State) (r : Response) : State := { s with responses := s.responses ++ [r] }

/-- A limb write (R61): the addressed bits change, the register's tag is cleared. -/
def limbWrite (s : State) (i : RegIx) (j : Fin 5) (v : BitVec 64) : Part → State
  | .whole => s.writeCell i j (.ofLimb v)
  | .lo => s.writeCell i j (LimbCell.withLo ((s.feReg i).n[j]) (loHalf v))
  | .hi => s.writeCell i j (LimbCell.withHi ((s.feReg i).n[j]) (loHalf v))

/-- A TAG write of `t` whose limbs are all written (R62): the check decides between the requested tag and a cleared tag
with the fault TAG_INVALID. -/
def tagWrite (s : State) (i : RegIx) (t : Word) : State :=
  if TagCheck (s.limbs i) t then s.setTag i (tagMag t) (tagNorm t)
  else (s.clearTag i).raiseFault .tagInvalid i t

/-- A CMD write, once accepted: discarded while STATUS.FAULT = 1, else issued (R64, R205). -/
def cmdWrite (s : State) (w : Word) : State := if s.fault then s else s.accept w

/-- A write that reaches a register (R58, R59, R61, R62, R64). A TAG write of a register with unwritten limbs is the
spec's model fault (R62, V3; log entry 10). -/
def writeTarget (s : State) (v : BitVec 64) : Target → Result
  | .id => .next (s.respond .accepted)
  | .version => .next (s.respond .accepted)
  | .param => .next (s.respond .accepted)
  | .status => .next (s.respond .accepted)
  | .faultCmd => .next (s.respond .accepted)
  | .cmd => .next ((cmdWrite s (loHalf v)).respond .accepted)
  | .limb i j part => .next ((limbWrite s i j v part).respond .accepted)
  | .tag i =>
    if s.allWritten i then .next ((tagWrite s i (loHalf v)).respond .accepted)
    else .fault (.unwrittenLimbs i)

/-! ### Events -/

/-- What one event at the port does, once it is accepted (R58 to R64, R230). -/
def hostStep (s : State) : HostAction → Result
  | .reset => .next s.platformReset
  | .read off width =>
    match resolve off width with
    | some t => .next (s.respond (.data (readTarget s t)))
    | none => .next (s.respond .busError)
  | .write off width v =>
    match resolve off width with
    | some t => writeTarget s v t
    | none => .next (s.respond .busError)

/-- May a read of this register complete while BUSY (R65)? -/
def readsWhileBusy : Target → Bool
  | .id | .version | .param | .status | .faultCmd => true
  | .cmd | .limb _ _ _ | .tag _ => false

/-- Is the event served at once, also while a command is in flight? A reset is (R230, V11), an access that ends in
BusError is, and a read of ID, VERSION, PARAM, STATUS or FAULT_CMD is; every other access is held (R65). -/
def notHeld : HostAction → Bool
  | .reset => true
  | .read off width =>
    match resolve off width with
    | some t => readsWhileBusy t
    | none => true
  | .write off width _ => (resolve off width).isNone

end Sys2Proof.Machine
end

