-- ==== Sys2Proof/Machine/Agents.lean ====
section
/-!
DEFINITION. The two agents and their order (spec/20_memory.md R65, R67, R72): the command engine and the host with its
platform.
-/

namespace Sys2Proof.Machine

/-- The engine's single step: it completes the command `w` held in INFLIGHT (R72). A word that is not legal raises
ILLEGAL_CMD before any register is read (R84). -/
def engineStep (s : State) (w : Word) : Result :=
  match decode w with
  | .command i => exec i s
  | .illegal _ => commandFault s .illegalCmd 0#4 w

/-- Does this event come before the completion of the command in flight? It does if it reaches the block while the
command executes and is not held (R65; log entry 4). -/
def goesFirst (e : HostEvent) : Bool :=
  match e.arrival with
  | .whileBusy => notHeld e.action
  | .afterCompletion => false

/-- The next event of the host, if there is one; else the block waits (R231; log entry 11). -/
def hostTurn (s : State) : Result :=
  match s.host with
  | e :: rest => hostStep (s.setHost rest) e.action
  | [] => .next s

/-- One step of the block and its host (R72). The engine is enabled exactly when INFLIGHT is not empty, the host's held
accesses exactly when it is empty. -/
def agentsStep (s : State) : Result :=
  match s.inflight with
  | none => hostTurn s
  | some w =>
    match s.host with
    | e :: _ => if goesFirst e then hostTurn s else engineStep s w
    | [] => engineStep s w

/-- The events of a host program put behind those still to come: how a program is given to the machine (R26, R37; log
entry 15). -/
def State.withHost (s : State) (es : List HostEvent) : State := s.setHost (s.host ++ es)

/-- The events to come, with the first one arriving after the completion of the command in flight. -/
def firstAfterCompletion : List HostEvent → List HostEvent
  | e :: rest => { e with arrival := .afterCompletion } :: rest
  | [] => []

/-- The command word `w` accepted and in flight, with the engine to move next. -/
def placeCommand (s : State) (w : Word) : State :=
  (s.accept w).setHost (firstAfterCompletion s.host)

end Sys2Proof.Machine
end

