-- ==== Sys2Proof/Machine/Step.lean ====
section
/-!
DEFINITION. step: one step of the block and its host (spec/20_memory.md R72), and the host's way to place a command.
-/

namespace Sys2Proof.Machine

/-- One step (R72). -/
def step (s : State) : Host.Outcome State Fault Refusal := Sys2Proof.Machine.agentsStep s

/-- `s` with the word of the opcode table where the engine takes its command from, INFLIGHT (R35, R64, R86), so that the
very next step executes it. The block fetches nothing itself (R70; log entry 15). -/
def State.withFetchWord (s : State) (nbits w : Nat) : State :=
  Sys2Proof.Machine.placeCommand s (BitVec.ofNat 32 (w % 2 ^ nbits))

end Sys2Proof.Machine
end

