-- ==== Sys2Proof/Machine/HostRef.lean ====
section
/-!
DEFINITION. The host-side reference functions (spec/48_host_reference.md). They are software outside the block: no step
of the machine calls them (R180). A call that breaks a precondition answers `none`, never a value (R180, U3, U9, U10;
log entry 18).
-/

namespace Sys2Proof.Machine

/-- A host value: a limb vector with the source's two attributes (R180). -/
structure HostValue where
  n : Limbs
  mag : Nat
  norm : Bool
  deriving DecidableEq, Repr

/-- set_int(a), 0 ≤ a < 2^52 (R181). -/
def setInt (a : Nat) : Option HostValue :=
  if a < 2 ^ 52 then
    some { n := { n0 := BitVec.ofNat 64 a, n1 := 0#64, n2 := 0#64, n3 := 0#64, n4 := 0#64 }, mag := 1, norm := true }
  else none

/-- The integer of 32 big-endian bytes: buf[0] is the most significant (R182). -/
def bytesValue (buf : Vector (BitVec 8) 32) : Nat :=
  buf.toList.foldl (fun v b => v * 256 + b.toNat) 0

/-- set_from_bytes(buf): the flag is set without a check, also for v ≥ p (R182, U2, C7). -/
def setFromBytes (buf : Vector (BitVec 8) 32) : HostValue := { n := limbsOf (bytesValue buf), mag := 1, norm := true }

/-- to_bytes(n, mag, norm), precondition norm = 1: buf[k] = val(n)[8·(31−k)+7 : 8·(31−k)] (R183). -/
def toBytes (x : HostValue) : Option (Vector (BitVec 8) 32) :=
  if x.norm then some (Vector.ofFn fun k : Fin 32 => BitVec.ofNat 8 (valueOf x.n / 2 ^ (8 * (31 - k.val)))) else none

/-- C_M,0 to C_M,4 = 2·(M+1)·p_i, the corrected constants (R184, C2). -/
def negateConstants (m : Nat) : Limbs :=
  let k := BitVec.ofNat 64 (2 * (m + 1))
  { n0 := k * Config.pLo52, n1 := k * Config.pMid52, n2 := k * Config.pMid52, n3 := k * Config.pMid52,
    n4 := k * Config.pHi48 }

/-- negate(a, M), precondition mag(a) ≤ M and M + 1 ≤ MAG_MAX (R184). -/
def negate (a : HostValue) (m : Nat) : Option HostValue :=
  if a.mag ≤ m ∧ m + 1 ≤ Config.magMax then
    let c := negateConstants m
    some { n := { n0 := c.n0 - a.n.n0, n1 := c.n1 - a.n.n1, n2 := c.n2 - a.n.n2, n3 := c.n3 - a.n.n3,
                  n4 := c.n4 - a.n.n4 },
           mag := m + 1, norm := false }
  else none

/-- mul_int(a, k), precondition k ≥ 1 and mag(a)·k ≤ MAG_MAX (R185). -/
def mulInt (a : HostValue) (k : Nat) : Option HostValue :=
  if 1 ≤ k ∧ a.mag * k ≤ Config.magMax then
    let kl := BitVec.ofNat 64 k
    some { n := { n0 := a.n.n0 * kl, n1 := a.n.n1 * kl, n2 := a.n.n2 * kl, n3 := a.n.n3 * kl, n4 := a.n.n4 * kl },
           mag := a.mag * k, norm := false }
  else none

/-- is_zero(n, mag, norm), precondition norm = 1: all limbs are 0 (R186). -/
def isZero (x : HostValue) : Option Bool :=
  if x.norm then
    some (x.n.n0 == 0#64 && x.n.n1 == 0#64 && x.n.n2 == 0#64 && x.n.n3 == 0#64 && x.n.n4 == 0#64)
  else none

/-- is_odd(n, mag, norm), precondition norm = 1: bit 0 of n0 (R187). -/
def isOdd (x : HostValue) : Option Bool := if x.norm then some (x.n.n0.getLsbD 0) else none

/-- equal(x, y), precondition both normalized: limb-wise comparison (R188). -/
def hostEqual (x y : HostValue) : Option Bool := if x.norm && y.norm then some (x.n == y.n) else none

/-- The word LOADFE writes to TAG: mag | (norm << 8) (R189). -/
def loadTag (x : HostValue) : Word := BitVec.ofNat 32 x.mag ||| bit32 x.norm <<< 8

/-- LOADFE fi: five limb writes, then the TAG write (R189). -/
def loadFe (i : RegIx) (x : HostValue) : List HostAction :=
  [.write (limbOffset i 0) 64 x.n.n0, .write (limbOffset i 1) 64 x.n.n1, .write (limbOffset i 2) 64 x.n.n2,
   .write (limbOffset i 3) 64 x.n.n3, .write (limbOffset i 4) 64 x.n.n4,
   .write (tagOffset i) 32 ((loadTag x).setWidth 64)]

/-- STOREFE fi: five limb reads and the TAG read (R190). -/
def storeFe (i : RegIx) : List HostAction :=
  [.read (limbOffset i 0) 64, .read (limbOffset i 1) 64, .read (limbOffset i 2) 64, .read (limbOffset i 3) 64,
   .read (limbOffset i 4) 64, .read (tagOffset i) 32]

/-- The host value the six responses of STOREFE give, if VALID = 1 (R190). -/
def storedValue : List Response → Option HostValue
  | [.data n0, .data n1, .data n2, .data n3, .data n4, .data t] =>
    if t.getLsbD 16 then
      some { n := { n0 := n0, n1 := n1, n2 := n2, n3 := n3, n4 := n4 }, mag := (t.extractLsb' 0 6).toNat,
             norm := t.getLsbD 8 }
    else none
  | _ => none

/-- Accesses served one after the other, none with a command in flight: what LOADFE and STOREFE do to the block. -/
def serve (s : State) : List HostAction → Result
  | [] => .next s
  | a :: rest =>
    match hostStep s a with
    | .next t => serve t rest
    | .fault f => .fault f
    | .refused r => .refused r

end Sys2Proof.Machine
end

