-- ==== Sys2Proof/Safety.lean ====
section
/-!
DEFINITION. The terms claims are stated in: who moves next (spec/20_memory.md R65, R72), what two states share, the
fault a command meets first (spec/60_exceptions.md R206), the invariants of the block (spec/10_state.md R22 to R24, R32,
R33, R35) and what a successful end of a run is (spec/70_reset_and_hazards.md R240).
-/

namespace Sys2Proof.Machine

/-! ### Who moves -/

/-- The engine moves next and completes `w`: `w` is in flight, and the next event, if there is one, does not come first
(R65, R72). -/
def EngineMoves (s : State) (w : Word) : Prop :=
  s.inflight = some w ∧ ∀ e rest, s.host = e :: rest → goesFirst e = false

/-- The host or the platform moves next, with the action `a` and the events `rest` after it (R65, R72). -/
def HostMoves (s : State) (a : HostAction) (rest : List HostEvent) : Prop :=
  ∃ e, s.host = e :: rest ∧ e.action = a ∧ (s.inflight = none ∨ goesFirst e = true)

/-! ### Registers of a command -/

/-- RD of a command. -/
def destOf : Instr → RegIx
  | .fadd rd _ _ => rd
  | .fmul rd _ _ => rd
  | .fsqr rd _ => rd
  | .fnorm rd _ => rd

/-- The same command with another destination. -/
def redirect (rd : RegIx) : Instr → Instr
  | .fadd _ rs1 rs2 => .fadd rd rs1 rs2
  | .fmul _ rs1 rs2 => .fmul rd rs1 rs2
  | .fsqr _ rs1 => .fsqr rd rs1
  | .fnorm _ rs1 => .fnorm rd rs1

/-- RS1 of a command. -/
def firstSource : Instr → RegIx
  | .fadd _ rs1 _ => rs1
  | .fmul _ rs1 _ => rs1
  | .fsqr _ rs1 => rs1
  | .fnorm _ rs1 => rs1

/-- The fault a legal command meets first, with the register it is tied to; `none` if it meets none (R201, R206). -/
def firstFault (s : State) : Instr → Option (Cause × RegIx)
  | .fadd rd rs1 rs2 =>
    if s.valid rs1 = false then some (.uninitSrc, rs1)
    else if s.valid rs2 = false then some (.uninitSrc, rs2)
    else if (s.mag rs1).toNat + (s.mag rs2).toNat > 32 then some (.addMagnitude, rd)
    else none
  | .fmul _ rs1 rs2 =>
    if s.valid rs1 = false then some (.uninitSrc, rs1)
    else if s.valid rs2 = false then some (.uninitSrc, rs2)
    else if (s.mag rs1).toNat > 8 then some (.mulMagnitude, rs1)
    else if (s.mag rs2).toNat > 8 then some (.mulMagnitude, rs2)
    else none
  | .fsqr _ rs1 =>
    if s.valid rs1 = false then some (.uninitSrc, rs1)
    else if (s.mag rs1).toNat > 8 then some (.mulMagnitude, rs1)
    else none
  | .fnorm _ rs1 => if s.valid rs1 = false then some (.uninitSrc, rs1) else none

/-! ### What two states share -/

/-- STATUS.FAULT, CAUSE, FREG and FAULT_CMD are unchanged. -/
def SameFaultRegs (s t : State) : Prop :=
  t.fault = s.fault ∧ t.cause = s.cause ∧ t.freg = s.freg ∧ t.faultCmd = s.faultCmd

/-- The model's own fields are unchanged: reset counter, events to come, responses. -/
def SameOutside (s t : State) : Prop := t.epoch = s.epoch ∧ t.host = s.host ∧ t.responses = s.responses

/-- FE[i] is unchanged: as stored, and as a reader sees it. -/
def SameReg (s t : State) (i : RegIx) : Prop := t.feReg i = s.feReg i ∧ t.limbs i = s.limbs i

/-- The tags of FE[i] are the same. -/
def SameTag (s t : State) (i : RegIx) : Prop := t.mag i = s.mag i ∧ t.norm i = s.norm i ∧ t.valid i = s.valid i

/-- The fault recorded is this one (R203). -/
def Recorded (t : State) (c : Cause) (f : RegIx) (w : Word) : Prop :=
  t.fault = true ∧ t.cause = c ∧ t.freg = f ∧ t.faultCmd = w

/-- No command is in flight (R35). -/
def Idle (t : State) : Prop := t.inflight = none ∧ t.busy = false

/-- FE[i] is invalid with its tag cleared (R24, R61). -/
def TagCleared (t : State) (i : RegIx) : Prop := t.valid i = false ∧ t.mag i = 0#6 ∧ t.norm i = false

/-! ### Invariants -/

/-- The tag invariant of FE[i] (R22, R23, R24): while VALID = 1 the limbs are written, MAG is 1 to MAG_MAX, the limbs
have magnitude MAG, and NORM = 1 only with MAG = 1 and canonical limbs; while VALID = 0 MAG and NORM are 0. -/
def TagInv (s : State) (i : RegIx) : Prop :=
  (s.valid i = true →
    s.allWritten i = true ∧ 1 ≤ (s.mag i).toNat ∧ (s.mag i).toNat ≤ Config.magMax ∧
      HasMagnitude (s.mag i).toNat (s.limbs i) ∧
      (s.norm i = true → (s.mag i).toNat = 1 ∧ Canonical (s.limbs i))) ∧
  (s.valid i = false → s.mag i = 0#6 ∧ s.norm i = false)

/-- The fault registers (R32, R33, R201): all 0 while FAULT = 0, and a cause of 1 to 5 while FAULT = 1. -/
def FaultInv (s : State) : Prop :=
  (s.fault = false → s.cause = .none ∧ s.freg = 0#4 ∧ s.faultCmd = 0#32) ∧ (s.fault = true → s.cause ≠ .none)

/-- BUSY is 1 exactly while a command is in flight, and none is while FAULT = 1 (R35, R64, R203, R205). -/
def FlightInv (s : State) : Prop :=
  s.busy = s.inflight.isSome ∧ (s.fault = true → s.inflight = none)

/-- The invariant of the block: every run's states meet it, and every step keeps it. -/
def StateInv (s : State) : Prop := (∀ i, TagInv s i) ∧ FaultInv s ∧ FlightInv s

/-- The run has ended: the host has made its last access and INFLIGHT is empty (R240). -/
def RunEnded (s : State) : Prop := s.host = [] ∧ s.inflight = none

/-- A successful run: ended, with no fault recorded and no access that ended in BusError; a run with a model fault
reaches no such state (R240). -/
def RunSuccessful (s : State) : Prop := RunEnded s ∧ s.fault = false ∧ Response.busError ∉ s.responses

end Sys2Proof.Machine
end

