-- ==== Sys2Proof/Certificates/Slice0/Obligations.lean ====
section
/-!
DEFINITION. The statements for the provers. Each docstring names the rule of spec/ it formalises, or says what it is
derived from.
-/

open Sys2Proof Sys2Proof.Machine

/-! ### Encoding -/

/-- Decoding an encoded command gives it back, with every operand at every value (R80, R81, R83). -/
def Obligations.DecodeEncodeRoundTrip : Prop := ∀ i : Instr, decode (encode i) = .command i

/-- A legal word has one meaning: encoding what a word decodes to gives the word back (R80, R84). So the command word a
fault records (R201), computed by `encode`, is the word that was written. -/
def Obligations.EncodeDecodeRoundTrip : Prop := ∀ (w : Word) (i : Instr), decode w = .command i → encode i = w

/-- R84. A word decodes to a command exactly when it is legal; any other word in flight raises ILLEGAL_CMD with register
0 and changes no FE register. -/
def Obligations.LegalWordsAreTheCommands : Prop :=
  ∀ w : Word,
    ((∃ i, decode w = .command i) ↔
      (w.toNat / 2 ^ 16 = 0 ∧
        (w.toNat % 16 = 1 ∨ w.toNat % 16 = 2 ∨
          ((w.toNat % 16 = 3 ∨ w.toNat % 16 = 4) ∧ w.toNat / 2 ^ 12 % 16 = 0)))) ∧
    ((∀ i, decode w ≠ .command i) → ∀ s : State, EngineMoves s w →
      ∃ t, step s = .next t ∧ (∀ k, SameReg s t k) ∧ SameOutside s t ∧ Idle t ∧
        (s.fault = false → Recorded t .illegalCmd 0#4 w) ∧ (s.fault = true → SameFaultRegs s t))

/-- R89. The worked encodings, both ways. -/
def Obligations.WorkedEncodings : Prop :=
  (encode (.fadd 2#4 0#4 1#4) = 0x00001021#32 ∧ decode 0x00001021#32 = .command (.fadd 2#4 0#4 1#4)) ∧
  (encode (.fmul 3#4 1#4 2#4) = 0x00002132#32 ∧ decode 0x00002132#32 = .command (.fmul 3#4 1#4 2#4)) ∧
  (encode (.fsqr 0#4 0#4) = 0x00000003#32 ∧ decode 0x00000003#32 = .command (.fsqr 0#4 0#4)) ∧
  (encode (.fnorm 15#4 3#4) = 0x000003F4#32 ∧ decode 0x000003F4#32 = .command (.fnorm 15#4 3#4)) ∧
  (encode (.fmul 15#4 15#4 15#4) = 0x0000FFF2#32 ∧ decode 0x0000FFF2#32 = .command (.fmul 15#4 15#4 15#4)) ∧
  (encode (.fnorm 1#4 1#4) = 0x00000114#32 ∧ decode 0x00000114#32 = .command (.fnorm 1#4 1#4))

/-! ### The step -/

/-- When the engine moves and the word in flight decodes to a command, the step is that command, with nothing around it
(R64, R72). -/
def Obligations.StepRunsTheDecodedCommand : Prop :=
  ∀ (s : State) (w : Word) (i : Instr), EngineMoves s w → decode w = .command i → step s = exec i s

/-- A command word placed in flight is executed by the very next step. How a word comes to stand there is the model's
own convention (log entry 15). -/
def Obligations.PlacedWordRunsNext : Prop :=
  ∀ (s : State) (w : Word) (i : Instr), decode w = .command i →
    step (s.withFetchWord 32 w.toNat) = exec i (s.withFetchWord 32 w.toNat)

/-- With no command in flight and no event to come the block waits: the step changes nothing. R231 says that the block
waits; that waiting is a step that changes nothing is the model's choice (log entry 11). -/
def Obligations.IdleBlockWaits : Prop :=
  ∀ s : State, s.inflight = none → s.host = [] → step s = .next s

/-- R64. A CMD write is discarded while FAULT = 1, else it puts its word in flight and sets BUSY; a word in flight, when
the engine moves, executes by the rule of its opcode and completes. -/
def Obligations.CmdWriteIssuesAndCompletes : Prop :=
  (∀ (s : State) (v : BitVec 64) (rest : List HostEvent), HostMoves s (.write 0x010#12 32 v) rest →
    (s.fault = true → step s = .next { s with host := rest, responses := s.responses ++ [.accepted] }) ∧
    (s.fault = false → step s = .next { s with
      host := rest, responses := s.responses ++ [.accepted], inflight := some (loHalf v), busy := true })) ∧
  (∀ (s : State) (w : Word), EngineMoves s w →
    (∀ i, decode w = .command i → step s = exec i s) ∧ ∃ t, step s = .next t ∧ Idle t)

/-- R72, R238: an accepted command completes, unless the platform's reset abandons it (R230, V11). Whatever events are to
come, after at most as many steps as there are events, with the command still in flight and the FE registers as they were
(R65, R66), either the engine moves and its step completes the command, or the reset is the next move and empties
INFLIGHT. -/
def Obligations.AcceptedCommandCompletes : Prop :=
  ∀ (s : State) (w : Word), s.inflight = some w →
    ∃ (k : Nat) (t u : State), k ≤ s.host.length ∧ Host.Core.run Sys2Proof.core k s = .next t ∧
      t.inflight = some w ∧ t.fe = s.fe ∧ SameFaultRegs s t ∧ step t = .next u ∧ Idle u ∧
      ((EngineMoves t w ∧ engineStep t w = .next u) ∨ ∃ rest, HostMoves t .reset rest)

/-- R70. A command enters only as the data of a CMD write accepted without a fault, and nothing changes it later: it
stays in flight as it is until it is gone. -/
def Obligations.AcceptedCommandNeverChanges : Prop :=
  (∀ (s t : State) (w : Word), s.inflight = none → step s = .next t → t.inflight = some w →
    ∃ (v : BitVec 64) (rest : List HostEvent),
      HostMoves s (.write 0x010#12 32 v) rest ∧ w = loHalf v ∧ s.fault = false) ∧
  (∀ (s t : State) (w : Word), s.inflight = some w → step s = .next t → t.inflight = some w ∨ t.inflight = none)

/-- The model stops only on the spec's own model fault (R62, V3): a TAG write of a register with an unwritten limb. It
never refuses. -/
def Obligations.StopsOnlyOnUnwrittenTagWrite : Prop :=
  ∀ s : State,
    (∀ r, step s ≠ .refused r) ∧
    (∀ f, step s = .fault f →
      ∃ (i : RegIx) (v : BitVec 64) (rest : List HostEvent),
        f = .unwrittenLimbs i ∧ HostMoves s (.write (tagOffset i) 32 v) rest ∧ s.allWritten i = false)

/-! ### FADD -/

/-- R101. FADD with valid sources whose magnitudes sum to at most 32 completes, and no limb overflows: each limb of the
destination is the exact sum, below 2^58, limb 4 below 2^54. -/
def Obligations.FaddNoLimbOverflows : Prop :=
  ∀ (s : State) (d a b : RegIx), s.valid a = true → s.valid b = true →
    (s.mag a).toNat + (s.mag b).toNat ≤ 32 → TagInv s a → TagInv s b →
    ∃ t, exec (.fadd d a b) s = .next t ∧
      (t.limbs d).n0.toNat = (s.limbs a).n0.toNat + (s.limbs b).n0.toNat ∧
      (t.limbs d).n1.toNat = (s.limbs a).n1.toNat + (s.limbs b).n1.toNat ∧
      (t.limbs d).n2.toNat = (s.limbs a).n2.toNat + (s.limbs b).n2.toNat ∧
      (t.limbs d).n3.toNat = (s.limbs a).n3.toNat + (s.limbs b).n3.toNat ∧
      (t.limbs d).n4.toNat = (s.limbs a).n4.toNat + (s.limbs b).n4.toNat ∧
      (t.limbs d).n0.toNat ≤ 32 * (2 ^ 53 - 1) ∧ (t.limbs d).n1.toNat ≤ 32 * (2 ^ 53 - 1) ∧
      (t.limbs d).n2.toNat ≤ 32 * (2 ^ 53 - 1) ∧ (t.limbs d).n3.toNat ≤ 32 * (2 ^ 53 - 1) ∧
      (t.limbs d).n4.toNat ≤ 32 * (2 ^ 49 - 1) ∧
      (t.limbs d).n0.toNat < 2 ^ 58 ∧ (t.limbs d).n1.toNat < 2 ^ 58 ∧ (t.limbs d).n2.toNat < 2 ^ 58 ∧
      (t.limbs d).n3.toNat < 2 ^ 58 ∧ (t.limbs d).n4.toNat < 2 ^ 54

/-- R102. FADD's result law: the values add exactly and so represent a + b mod p, the magnitudes add, NORM is 0, the tag
invariant holds; the laws of identity, commutativity (bit for bit) and associativity (the same limbs). -/
def Obligations.FaddResultLaw : Prop :=
  (∀ (s : State) (d a b : RegIx), s.valid a = true → s.valid b = true →
    (s.mag a).toNat + (s.mag b).toNat ≤ 32 → TagInv s a → TagInv s b →
    ∃ t u, exec (.fadd d a b) s = .next t ∧ exec (.fadd d b a) s = .next u ∧
      valueOf (t.limbs d) = valueOf (s.limbs a) + valueOf (s.limbs b) ∧
      valueOf (t.limbs d) % Config.p = (valueOf (s.limbs a) % Config.p + valueOf (s.limbs b) % Config.p) % Config.p ∧
      HasMagnitude ((s.mag a).toNat + (s.mag b).toNat) (t.limbs d) ∧
      (t.mag d).toNat = (s.mag a).toNat + (s.mag b).toNat ∧ t.norm d = false ∧ t.valid d = true ∧ TagInv t d ∧
      u.feReg d = t.feReg d) ∧
  (∀ (x : Limbs), addLimbs x (limbsOf 0) = x) ∧
  (∀ (x y z : Limbs), addLimbs (addLimbs x y) z = addLimbs x (addLimbs y z))

/-! ### REDUCE, FMUL, FSQR -/

/-- R160, R162. The nine columns carry the exact product, and the squarer's columns are the multiplier's. -/
def Obligations.ColumnsMultiplyExactly : Prop :=
  (∀ a b : Limbs, columnValue (cols a b) = valueOf a * valueOf b) ∧ (∀ a : Limbs, sqcols a = cols a a)

/-- R145. For sources of magnitude at most 8 every column is at most 5·(8·(2^53 − 1))^2, which is below 2^115 and so
below 2^128 by 13 bits; in the worst case bound(8) × bound(8) the largest column has 114 bits. -/
def Obligations.ColumnsStayBelowAccumulator : Prop :=
  (∀ a b : Limbs, HasMagnitude 8 a → HasMagnitude 8 b →
    (cols a b).c0 ≤ 5 * (8 * (2 ^ 53 - 1)) ^ 2 ∧ (cols a b).c1 ≤ 5 * (8 * (2 ^ 53 - 1)) ^ 2 ∧
    (cols a b).c2 ≤ 5 * (8 * (2 ^ 53 - 1)) ^ 2 ∧ (cols a b).c3 ≤ 5 * (8 * (2 ^ 53 - 1)) ^ 2 ∧
    (cols a b).c4 ≤ 5 * (8 * (2 ^ 53 - 1)) ^ 2 ∧ (cols a b).c5 ≤ 5 * (8 * (2 ^ 53 - 1)) ^ 2 ∧
    (cols a b).c6 ≤ 5 * (8 * (2 ^ 53 - 1)) ^ 2 ∧ (cols a b).c7 ≤ 5 * (8 * (2 ^ 53 - 1)) ^ 2 ∧
    (cols a b).c8 ≤ 5 * (8 * (2 ^ 53 - 1)) ^ 2) ∧
  5 * (8 * (2 ^ 53 - 1)) ^ 2 < 2 ^ 115 ∧
  (∀ m : Limbs, m = { n0 := BitVec.ofNat 64 (lowBound 8), n1 := BitVec.ofNat 64 (lowBound 8),
                      n2 := BitVec.ofNat 64 (lowBound 8), n3 := BitVec.ofNat 64 (lowBound 8),
                      n4 := BitVec.ofNat 64 (topBound 8) } →
    (cols m m).c0 < 2 ^ 114 ∧ (cols m m).c1 < 2 ^ 114 ∧ (cols m m).c2 < 2 ^ 114 ∧ (cols m m).c3 < 2 ^ 114 ∧
    (cols m m).c4 < 2 ^ 114 ∧ (cols m m).c5 < 2 ^ 114 ∧ (cols m m).c6 < 2 ^ 114 ∧ (cols m m).c7 < 2 ^ 114 ∧
    (cols m m).c8 < 2 ^ 114 ∧ 2 ^ 113 ≤ (cols m m).c3)

/-- R144. At most three folds bring a value below 2^545, so every sum of nine columns below 2^128, under 2^256, and the
loop gives F(F(F(V))); F is the identity below 2^256; two and three folds can be needed. -/
def Obligations.ThreeFoldsSuffice : Prop :=
  (∀ c : Columns, c.c0 < 2 ^ 128 → c.c1 < 2 ^ 128 → c.c2 < 2 ^ 128 → c.c3 < 2 ^ 128 → c.c4 < 2 ^ 128 →
    c.c5 < 2 ^ 128 → c.c6 < 2 ^ 128 → c.c7 < 2 ^ 128 → c.c8 < 2 ^ 128 → columnValue c < 2 ^ 545) ∧
  (∀ x : Nat, x < 2 ^ 256 → fold x = x) ∧
  (∀ v : Nat, v < 2 ^ 545 →
    fold v < 2 ^ 256 + 2 ^ 322 ∧ fold (fold v) < 2 ^ 256 + 2 ^ 100 ∧
    (2 ^ 256 ≤ fold (fold v) → fold (fold v) % 2 ^ 256 < 2 ^ 100) ∧
    fold (fold (fold v)) < 2 ^ 256 ∧
    ∀ k, 3 ≤ k → foldWhile k v = fold (fold (fold v))) ∧
  (fold (2 ^ 257 - 1) = 2 ^ 256 - 1 + Config.r ∧ 2 ^ 256 ≤ fold (2 ^ 257 - 1) ∧
    fold (fold (2 ^ 257 - 1)) = 2 * Config.r - 1 ∧ 2 * Config.r - 1 < 2 ^ 256) ∧
  (∀ v : Nat,
    v = 0xFFFFFFFFFFFFFFFFFFFFFFFFFFFFFFFFFFFFFFFFFFFFFFFFFFFFFFFF05625499 +
      0xFFFFFC2F000E90A0C86A0A63234E5BA641F43A7E4AECC4040E67EC86 * 2 ^ 256 →
    fold v = 2 ^ 257 - 1 ∧ fold (fold v) = 2 ^ 256 - 1 + Config.r ∧ fold (fold (fold v)) = 2 * Config.r - 1 ∧
      2 * Config.r - 1 = 0x2000007A1) ∧
  (∀ m : Limbs, m = { n0 := BitVec.ofNat 64 (lowBound 8), n1 := BitVec.ofNat 64 (lowBound 8),
                      n2 := BitVec.ofNat 64 (lowBound 8), n3 := BitVec.ofNat 64 (lowBound 8),
                      n4 := BitVec.ofNat 64 (topBound 8) } →
    (∀ a b : Limbs, HasMagnitude 8 a → HasMagnitude 8 b →
      columnValue (cols a b) ≤ columnValue (cols m m)) ∧
    columnValue (cols m m) < 2 ^ 521 ∧ fold (columnValue (cols m m)) < 2 ^ 297 ∧
    fold (fold (columnValue (cols m m))) < 2 ^ 256)

/-- R143. REDUCE's output is congruent to the product, below 2^256, in range and of magnitude 1, but it need not be
canonical; so FMUL and FSQR write MAG = 1 and NORM = 0 and keep the tag invariant. -/
def Obligations.ReduceOutputProperties : Prop :=
  (∀ c : Columns, c.c0 < 2 ^ 128 → c.c1 < 2 ^ 128 → c.c2 < 2 ^ 128 → c.c3 < 2 ^ 128 → c.c4 < 2 ^ 128 →
    c.c5 < 2 ^ 128 → c.c6 < 2 ^ 128 → c.c7 < 2 ^ 128 → c.c8 < 2 ^ 128 →
    valueOf (reduce c) % Config.p = columnValue c % Config.p ∧ valueOf (reduce c) < 2 ^ 256 ∧
    (reduce c).n0.toNat < 2 ^ 52 ∧ (reduce c).n1.toNat < 2 ^ 52 ∧ (reduce c).n2.toNat < 2 ^ 52 ∧
    (reduce c).n3.toNat < 2 ^ 52 ∧ (reduce c).n4.toNat < 2 ^ 48 ∧ HasMagnitude 1 (reduce c)) ∧
  (reduce (cols (limbsOf 1) (limbsOf Config.p)) = limbsOf Config.p ∧ ¬ Canonical (limbsOf Config.p)) ∧
  (∀ (s : State) (d a b : RegIx), s.valid a = true → s.valid b = true → (s.mag a).toNat ≤ 8 → (s.mag b).toNat ≤ 8 →
    ∃ t, exec (.fmul d a b) s = .next t ∧ t.mag d = 1#6 ∧ t.norm d = false ∧ t.valid d = true ∧ TagInv t d) ∧
  (∀ (s : State) (d a : RegIx), s.valid a = true → (s.mag a).toNat ≤ 8 →
    ∃ t, exec (.fsqr d a) s = .next t ∧ t.mag d = 1#6 ∧ t.norm d = false ∧ t.valid d = true ∧ TagInv t d)

/-- FMUL multiplies in GF(p): with valid sources of magnitude at most 8 it completes, the destination represents the
product mod p and is below 2^256, with MAG = 1, NORM = 0, VALID = 1 (R143, R160, R161). -/
def Obligations.FmulMultipliesModP : Prop :=
  ∀ (s : State) (d a b : RegIx), s.valid a = true → s.valid b = true → (s.mag a).toNat ≤ 8 → (s.mag b).toNat ≤ 8 →
    ∃ t, exec (.fmul d a b) s = .next t ∧
      valueOf (t.limbs d) % Config.p = (valueOf (s.limbs a) * valueOf (s.limbs b)) % Config.p ∧
      valueOf (t.limbs d) < 2 ^ 256 ∧ t.mag d = 1#6 ∧ t.norm d = false ∧ t.valid d = true

/-- The exact bits of FMUL and FSQR (R142, R144, R161, R163): the product's exact value folded three times by
F(x) = (x mod 2^256) + r·(x >> 256), cut in limbs in range. -/
def Obligations.ProductsAreThreeFolds : Prop :=
  ∀ (f : Nat → Nat), (∀ x, f x = x % 2 ^ 256 + 0x1000003D1 * (x / 2 ^ 256)) →
    (∀ (s : State) (d a b : RegIx), s.valid a = true → s.valid b = true → (s.mag a).toNat ≤ 8 → (s.mag b).toNat ≤ 8 →
      ∃ t, exec (.fmul d a b) s = .next t ∧
        valueOf (t.limbs d) = f (f (f (valueOf (s.limbs a) * valueOf (s.limbs b)))) ∧
        (t.limbs d).n0.toNat < 2 ^ 52 ∧ (t.limbs d).n1.toNat < 2 ^ 52 ∧ (t.limbs d).n2.toNat < 2 ^ 52 ∧
        (t.limbs d).n3.toNat < 2 ^ 52 ∧ (t.limbs d).n4.toNat < 2 ^ 48) ∧
    (∀ (s : State) (d a : RegIx), s.valid a = true → (s.mag a).toNat ≤ 8 →
      ∃ t, exec (.fsqr d a) s = .next t ∧
        valueOf (t.limbs d) = f (f (f (valueOf (s.limbs a) * valueOf (s.limbs a)))) ∧
        (t.limbs d).n0.toNat < 2 ^ 52 ∧ (t.limbs d).n1.toNat < 2 ^ 52 ∧ (t.limbs d).n2.toNat < 2 ^ 52 ∧
        (t.limbs d).n3.toNat < 2 ^ 52 ∧ (t.limbs d).n4.toNat < 2 ^ 48)

/-- FSQR squares in GF(p), under the conditions of FMUL on its one source (R143, R162, R163). -/
def Obligations.FsqrSquaresModP : Prop :=
  ∀ (s : State) (d a : RegIx), s.valid a = true → (s.mag a).toNat ≤ 8 →
    ∃ t, exec (.fsqr d a) s = .next t ∧
      valueOf (t.limbs d) % Config.p = (valueOf (s.limbs a)) ^ 2 % Config.p ∧
      valueOf (t.limbs d) < 2 ^ 256 ∧ t.mag d = 1#6 ∧ t.norm d = false ∧ t.valid d = true

/-- R164. For a valid source of magnitude at most 8 FSQR does what FMUL with both sources equal does, bit for bit. -/
def Obligations.SquareEqualsMultiply : Prop :=
  ∀ (s : State) (d a : RegIx), s.valid a = true → (s.mag a).toNat ≤ 8 →
    ∃ t, exec (.fsqr d a) s = .next t ∧ exec (.fmul d a a) s = .next t

/-- The ring laws of the block (R165): FMUL is commutative bit for bit; the element 1 is neutral mod p; associativity and
distributivity hold limb for limb after normalization. -/
def Obligations.MultiplicationLaws : Prop :=
  (∀ (s : State) (d a b : RegIx), s.valid a = true → s.valid b = true → (s.mag a).toNat ≤ 8 → (s.mag b).toNat ≤ 8 →
    ∃ t u, exec (.fmul d a b) s = .next t ∧ exec (.fmul d b a) s = .next u ∧ t.feReg d = u.feReg d) ∧
  (∀ a : Limbs, valueOf (reduce (cols a (limbsOf 1))) < 2 ^ 256 ∧
    valueOf (reduce (cols a (limbsOf 1))) % Config.p = valueOf a % Config.p) ∧
  (∀ a b c : Limbs, HasMagnitude 8 a → HasMagnitude 8 b → HasMagnitude 8 c →
    normalizeLimbs (reduce (cols (reduce (cols a b)) c)) = normalizeLimbs (reduce (cols a (reduce (cols b c))))) ∧
  (∀ (a b c : Limbs) (mb mc : Nat), HasMagnitude 8 a → HasMagnitude mb b → HasMagnitude mc c → mb + mc ≤ 8 →
    normalizeLimbs (reduce (cols a (addLimbs b c))) =
      normalizeLimbs (addLimbs (reduce (cols a b)) (reduce (cols a c))))

/-! ### FNORM -/

/-- FNORM of a valid source completes and puts the canonical representative of its element in the destination, with
MAG = 1, NORM = 1, VALID = 1 (R120, R126). -/
def Obligations.FnormCanonicalises : Prop :=
  ∀ (s : State) (d a : RegIx), s.valid a = true → TagInv s a →
    ∃ t, exec (.fnorm d a) s = .next t ∧ Canonical (t.limbs d) ∧
      valueOf (t.limbs d) = valueOf (s.limbs a) % Config.p ∧ t.mag d = 1#6 ∧ t.norm d = true ∧ t.valid d = true

/-- R126. For every magnitude up to 2047 the function N gives a canonical vector of the value mod p; so FNORM's tag keeps
the tag invariant. -/
def Obligations.NormalizerResultLaw : Prop :=
  (∀ (m : Nat) (n : Limbs), m ≤ 2047 → HasMagnitude m n →
    Canonical (normalizeLimbs n) ∧ valueOf (normalizeLimbs n) = valueOf n % Config.p) ∧
  (∀ (s : State) (d a : RegIx), s.valid a = true → TagInv s a →
    ∃ t, exec (.fnorm d a) s = .next t ∧ t.mag d = 1#6 ∧ t.norm d = true ∧ TagInv t d)

/-- R127. N leaves a canonical vector as it is, N(N(n)) = N(n), and two elements are congruent mod p exactly when their
N images are equal limb for limb. -/
def Obligations.NormalizerIdempotent : Prop :=
  (∀ n : Limbs, Canonical n → normalizeLimbs n = n) ∧
  (∀ (m : Nat) (n : Limbs), m ≤ 2047 → HasMagnitude m n → normalizeLimbs (normalizeLimbs n) = normalizeLimbs n) ∧
  (∀ (m k : Nat) (x y : Limbs), m ≤ 2047 → k ≤ 2047 → HasMagnitude m x → HasMagnitude k y →
    (valueOf x % Config.p = valueOf y % Config.p ↔ normalizeLimbs x = normalizeLimbs y))

/-! ### All commands -/

/-- R233. A command computes the same result whichever register it writes, a source or not: all sources are read before
the destination is written, and no command needs a temporary register. -/
def Obligations.CommandsReadBeforeWriting : Prop :=
  ∀ (s : State) (i : Instr) (d : RegIx), firstFault s i = none →
    ∃ t u, exec i s = .next t ∧ exec (redirect d i) s = .next u ∧
      u.limbs d = t.limbs (destOf i) ∧ u.mag d = t.mag (destOf i) ∧ u.norm d = t.norm (destOf i) ∧
      u.valid d = t.valid (destOf i)

/-- Every command completes; which fault it records, with which register and word, is the first one of the order of R206,
with the codes of R201, unless one is recorded already (R203). -/
def Obligations.FirstFaultInOrderIsRecorded : Prop :=
  ∀ (s : State) (i : Instr), ∃ t, exec i s = .next t ∧ Idle t ∧
    (firstFault s i = none → SameFaultRegs s t ∧ t.valid (destOf i) = true) ∧
    (∀ c f, firstFault s i = some (c, f) →
      (∀ k, SameReg s t k) ∧ SameOutside s t ∧
      (s.fault = false → Recorded t c f (encode i)) ∧ (s.fault = true → SameFaultRegs s t))

/-- R204. A faulting command writes nothing: no limb, tag or VALID bit of any FE register changes, the destination's
included. -/
def Obligations.FaultingCommandWritesNothing : Prop :=
  ∀ (s t : State) (w : Word), EngineMoves s w → step s = .next t →
    (∀ i, decode w = .command i → firstFault s i ≠ none) →
    ∀ k, SameReg s t k ∧ SameTag s t k

/-- The frame of a command, for FADD, FMUL, FSQR and FNORM: every FE register but RD, its tag included, and the model's own
fields are unchanged; INFLIGHT is empty and BUSY 0 after it; STATUS.FAULT, CAUSE, FREG and FAULT_CMD change only when it
faults (R27, R50, R64, R204). -/
def Obligations.CommandFrame : Prop :=
  ∀ (i : Instr) (s t : State), exec i s = .next t →
    (∀ k, k ≠ destOf i → SameReg s t k ∧ SameTag s t k) ∧ SameOutside s t ∧ Idle t ∧
    (firstFault s i = none → SameFaultRegs s t) ∧
    (firstFault s i ≠ none → SameReg s t (destOf i) ∧ SameTag s t (destOf i))

/-- The frame of a command as the host sees it: every byte of the register window outside the 44 bytes of FE[RD] and
outside STATUS and FAULT_CMD reads as before. The block has no other memory (R50, R52, R53). -/
def Obligations.CommandWindowFrame : Prop :=
  ∀ (i : Instr) (s t : State) (off : BitVec 12), exec i s = .next t →
    ¬ (0x100 + 0x40 * (destOf i).toNat ≤ off.toNat ∧ off.toNat < 0x12C + 0x40 * (destOf i).toNat) →
    ¬ (0x014 ≤ off.toNat ∧ off.toNat < 0x01C) →
    windowByte t off = windowByte s off

/-- A command's tags and faults do not depend on limb values (R25): two states with the same tags and fault registers have
the same tags and fault registers after the same command, whatever their limbs. A TAG write is no command, and its check
does read the limbs (R62). -/
def Obligations.CommandTagsDoNotDependOnLimbs : Prop :=
  ∀ (i : Instr) (s u s' u' : State), (∀ k, SameTag s u k) → SameFaultRegs s u →
    exec i s = .next s' → exec i u = .next u' → (∀ k, SameTag s' u' k) ∧ SameFaultRegs s' u'

/-- A command that names a register with VALID = 0 as its first source faults with UNINIT_SRC; after reset every register
is so (R201, R231). -/
def Obligations.UnloadedSourceFaults : Prop :=
  (∀ (s : State) (i : Instr), s.valid (firstSource i) = false → s.fault = false →
    ∃ t, exec i s = .next t ∧ Recorded t .uninitSrc (firstSource i) (encode i) ∧ ∀ k, SameReg s t k) ∧
  (∀ k, State.reset.valid k = false)

/-! ### Faults -/

/-- R203. A fault is recorded if none is; else nothing is recorded and the first is kept. A command's fault completes the
command; a TAG write that raises one completes too. -/
def Obligations.FirstFaultIsKept : Prop :=
  (∀ (s : State) (c : Cause) (f : RegIx) (w : Word),
    (s.fault = false → Recorded (s.raiseFault c f w) c f w) ∧ (s.fault = true → s.raiseFault c f w = s) ∧
    ∃ t, commandFault s c f w = .next t ∧ Idle t ∧ SameFaultRegs (s.raiseFault c f w) t ∧ t.fe = s.fe) ∧
  (∀ (s : State) (i : RegIx) (v : BitVec 64), s.allWritten i = true →
    ∃ t, writeTarget s v (.tag i) = .next t ∧ t.responses = s.responses ++ [.accepted])

/-- R208. Once a fault is recorded no step clears or overwrites it but the platform's reset. -/
def Obligations.FaultIsStickyUntilReset : Prop :=
  ∀ s t : State, s.fault = true → step s = .next t →
    Recorded t s.cause s.freg s.faultCmd ∨ ∃ rest, HostMoves s .reset rest

/-- While faulted a CMD write changes nothing of the block and records nothing, and every other access does to the FE
registers what it does without a fault (R205). -/
def Obligations.FaultedBlockDiscardsCommands : Prop :=
  (∀ (s : State) (v : BitVec 64) (rest : List HostEvent), s.fault = true → HostMoves s (.write 0x010#12 32 v) rest →
    step s = .next { s with host := rest, responses := s.responses ++ [.accepted] }) ∧
  (∀ (s t u : State) (a : HostAction), s.fault = true → hostStep s a = .next t →
    hostStep { s with fault := false, cause := .none, freg := 0#4, faultCmd := 0#32 } a = .next u → t.fe = u.fe)

/-! ### Invariants -/

/-- Every step keeps the invariant: the tag invariant of all sixteen registers (R22, R23, R24), the fault registers
(R32, R33, R201), BUSY and INFLIGHT (R35, R205). -/
def Obligations.EveryStepKeepsStateInv : Prop :=
  ∀ s t : State, StateInv s → step s = .next t → StateInv t

/-- The state after reset meets the invariant. -/
def Obligations.ResetMeetsStateInv : Prop := StateInv State.reset

/-! ### Reset -/

/-- R38. The state after reset: tags 0, STATUS 0, FAULT_CMD 0, INFLIGHT empty, no limb written, ID, VERSION and PARAM at
their constants. -/
def Obligations.ResetState : Prop :=
  (∀ i, State.reset.mag i = 0#6 ∧ State.reset.norm i = false ∧ State.reset.valid i = false) ∧
  statusWord State.reset.busy State.reset.fault State.reset.cause State.reset.freg = 0x00000000#32 ∧
  State.reset.faultCmd = 0x00000000#32 ∧ State.reset.inflight = none ∧
  (∀ (i : RegIx) (j : Fin 5), ((State.reset.feReg i).n[j]).loWritten = false ∧
    ((State.reset.feReg i).n[j]).hiWritten = false) ∧
  readTarget State.reset .id = 0x53324B31#64 ∧ readTarget State.reset .version = 0x00000001#64 ∧
  readTarget State.reset .param = 0x00082010#64

/-- R230. The platform's reset, also with a command in flight: all FE registers invalid with tags cleared and limbs
unwritten, STATUS 0, FAULT_CMD 0, INFLIGHT empty. -/
def Obligations.PlatformResetClears : Prop :=
  ∀ (s : State) (rest : List HostEvent), HostMoves s .reset rest →
    ∃ t, step s = .next t ∧
      (∀ i, TagCleared t i ∧ ∀ j : Fin 5, ((t.feReg i).n[j]).loWritten = false ∧ ((t.feReg i).n[j]).hiWritten = false) ∧
      statusWord t.busy t.fault t.cause t.freg = 0x00000000#32 ∧ t.faultCmd = 0x00000000#32 ∧ t.inflight = none

/-- What lies outside the block survives its reset: the events to come and the responses given. R230 says nothing of it;
it is the model's choice (log entry 14), as is the counter of resets (log entry 2). -/
def Obligations.PlatformResetKeepsOutside : Prop :=
  ∀ (s : State) (rest : List HostEvent), HostMoves s .reset rest →
    ∃ t, step s = .next t ∧ t.host = rest ∧ t.responses = s.responses ∧ t.epoch = s.epoch + 1

/-- A limb half that nothing has written since reset reads as the free value of its limb and reset, and keeps reading so
through every step that does not reset the block and leaves the half unwritten (R63, V1, V2). -/
def Obligations.UnwrittenHalvesReadFree : Prop :=
  (∀ (s : State) (i : RegIx) (j : Fin 5),
    (((s.feReg i).n[j]).loWritten = false → loHalf (s.limb i j) = loHalf (Config.unwrittenLimb s.epoch i j)) ∧
    (((s.feReg i).n[j]).hiWritten = false → hiHalf (s.limb i j) = hiHalf (Config.unwrittenLimb s.epoch i j))) ∧
  (∀ (s t : State) (i : RegIx) (j : Fin 5), step s = .next t → t.epoch = s.epoch →
    (((t.feReg i).n[j]).loWritten = false → loHalf (t.limb i j) = loHalf (s.limb i j)) ∧
    (((t.feReg i).n[j]).hiWritten = false → hiHalf (t.limb i j) = hiHalf (s.limb i j)))

/-! ### The register window -/

/-- R53, R55. Which access reaches which register: the offsets of limbs and TAGs, the widths each register takes, and no
access but these. -/
def Obligations.WindowMap : Prop :=
  (∀ (i : RegIx) (j : Fin 5),
    (limbOffset i j).toNat = 0x100 + 0x40 * i.toNat + 8 * j.val ∧ (tagOffset i).toNat = 0x128 + 0x40 * i.toNat ∧
    resolve (limbOffset i j) 64 = some (.limb i j .whole) ∧ resolve (limbOffset i j) 32 = some (.limb i j .lo) ∧
    resolve (limbOffset i j + 4#12) 32 = some (.limb i j .hi) ∧ resolve (tagOffset i) 32 = some (.tag i)) ∧
  (resolve 0x000#12 32 = some .id ∧ resolve 0x004#12 32 = some .version ∧ resolve 0x008#12 32 = some .param ∧
    resolve 0x010#12 32 = some .cmd ∧ resolve 0x014#12 32 = some .status ∧ resolve 0x018#12 32 = some .faultCmd) ∧
  (∀ (off : BitVec 12) (width : Nat) (r : Target), resolve off width = some r →
    (width = 32 ∧
      ((off = 0x000#12 ∧ r = .id) ∨ (off = 0x004#12 ∧ r = .version) ∨ (off = 0x008#12 ∧ r = .param) ∨
       (off = 0x010#12 ∧ r = .cmd) ∨ (off = 0x014#12 ∧ r = .status) ∨ (off = 0x018#12 ∧ r = .faultCmd) ∨
       (∃ i, off = tagOffset i ∧ r = .tag i) ∨
       (∃ i j, off = limbOffset i j ∧ r = .limb i j .lo) ∨ (∃ i j, off = limbOffset i j + 4#12 ∧ r = .limb i j .hi))) ∨
    (width = 64 ∧ ∃ i j, off = limbOffset i j ∧ r = .limb i j .whole))

/-- R54, R56, R60. Any access, read or write, that is misaligned, at a reserved offset, or of a width the register does not
take is answered with the error response and changes no state of the block. -/
def Obligations.BadAccessesEndInBusError : Prop :=
  ∀ (s : State) (off : BitVec 12) (width : Nat) (v : BitVec 64) (rest : List HostEvent),
    ((0x00C ≤ off.toNat ∧ off.toNat < 0x010) ∨ (0x01C ≤ off.toNat ∧ off.toNat < 0x100) ∨
      (0x100 ≤ off.toNat ∧ off.toNat < 0x500 ∧ 0x2C ≤ off.toNat % 0x40) ∨ 0x500 ≤ off.toNat ∨
      (width = 32 ∧ off.toNat % 4 ≠ 0) ∨ (width = 64 ∧ off.toNat % 8 ≠ 0) ∨ (width ≠ 32 ∧ width ≠ 64) ∨
      (width = 64 ∧ off.toNat < 0x100) ∨ (width = 64 ∧ off.toNat % 0x40 = 0x28)) →
    (HostMoves s (.read off width) rest ∨ HostMoves s (.write off width v) rest) →
    step s = .next { s with host := rest, responses := s.responses ++ [.busError] }

/-- Reads have no side effect: a read changes nothing but the events to come and the responses given (R58). -/
def Obligations.ReadsHaveNoSideEffects : Prop :=
  ∀ (s : State) (off : BitVec 12) (width : Nat) (rest : List HostEvent), HostMoves s (.read off width) rest →
    ∃ r, step s = .next { s with host := rest, responses := s.responses ++ [r] } ∧
      (r = .busError ↔ resolve off width = none)

/-- What a read returns (R28 to R34, R59, R63), as the last response. -/
def Obligations.ReadsReturnRegisters : Prop :=
  ∀ (s : State) (off : BitVec 12) (width : Nat) (rest : List HostEvent), HostMoves s (.read off width) rest →
    ∃ t, step s = .next t ∧
      (off = 0x000#12 → width = 32 → t.responses = s.responses ++ [.data 0x53324B31#64]) ∧
      (off = 0x004#12 → width = 32 → t.responses = s.responses ++ [.data 0x00000001#64]) ∧
      (off = 0x008#12 → width = 32 → t.responses = s.responses ++ [.data 0x00082010#64]) ∧
      (off = 0x010#12 → width = 32 → t.responses = s.responses ++ [.data 0#64]) ∧
      (off = 0x014#12 → width = 32 → t.responses = s.responses ++ [.data (BitVec.ofNat 64
        (s.busy.toNat + 2 * s.fault.toNat + 16 * (causeCode s.cause).toNat + 256 * s.freg.toNat))]) ∧
      (off = 0x018#12 → width = 32 → t.responses = s.responses ++ [.data (BitVec.ofNat 64 s.faultCmd.toNat)]) ∧
      (∀ i, off = tagOffset i → width = 32 → t.responses = s.responses ++ [.data (BitVec.ofNat 64
        ((s.mag i).toNat + 256 * (s.norm i).toNat + 65536 * (s.valid i).toNat))]) ∧
      (∀ i j, off = limbOffset i j → width = 64 → t.responses = s.responses ++ [.data (s.limb i j)]) ∧
      (∀ i j, off = limbOffset i j → width = 32 →
        t.responses = s.responses ++ [.data (BitVec.ofNat 64 ((s.limb i j).toNat % 2 ^ 32))]) ∧
      (∀ i j, off = limbOffset i j + 4#12 → width = 32 →
        t.responses = s.responses ++ [.data (BitVec.ofNat 64 ((s.limb i j).toNat / 2 ^ 32))])

/-- The window is little-endian (R57). Whatever register an access of `width` bits at `off` reaches, the byte at off + k
carries bits [8k+7:8k] of the value it reads, for every byte of the access; so byte by byte for ID, VERSION, PARAM, CMD,
STATUS, FAULT_CMD and TAG, and for a limb, whose two 32-bit halves agree with the 64-bit access. A write of a limb, or of
half of one, puts bits [8k+7:8k] of the value written at off + k. -/
def Obligations.WindowIsLittleEndian : Prop :=
  (∀ (s : State) (off : BitVec 12) (width : Nat) (r : Target) (k : Nat), resolve off width = some r → 8 * k < width →
    windowByte s (off + BitVec.ofNat 12 k) = some (BitVec.ofNat 8 ((readTarget s r).toNat / 2 ^ (8 * k)))) ∧
  (∀ (s : State) (k : Nat), k < 4 →
    windowByte s (0x000#12 + BitVec.ofNat 12 k) = some (BitVec.ofNat 8 (0x53324B31 / 2 ^ (8 * k))) ∧
    windowByte s (0x004#12 + BitVec.ofNat 12 k) = some (BitVec.ofNat 8 (0x00000001 / 2 ^ (8 * k))) ∧
    windowByte s (0x008#12 + BitVec.ofNat 12 k) = some (BitVec.ofNat 8 (0x00082010 / 2 ^ (8 * k))) ∧
    windowByte s (0x010#12 + BitVec.ofNat 12 k) = some 0#8 ∧
    windowByte s (0x014#12 + BitVec.ofNat 12 k) = some (BitVec.ofNat 8
      ((s.busy.toNat + 2 * s.fault.toNat + 16 * (causeCode s.cause).toNat + 256 * s.freg.toNat) / 2 ^ (8 * k))) ∧
    windowByte s (0x018#12 + BitVec.ofNat 12 k) = some (BitVec.ofNat 8 (s.faultCmd.toNat / 2 ^ (8 * k))) ∧
    ∀ i : RegIx, windowByte s (tagOffset i + BitVec.ofNat 12 k) = some (BitVec.ofNat 8
      (((s.mag i).toNat + 256 * (s.norm i).toNat + 65536 * (s.valid i).toNat) / 2 ^ (8 * k)))) ∧
  (∀ (s : State) (i : RegIx) (j : Fin 5) (k : Nat), k < 8 →
    windowByte s (limbOffset i j + BitVec.ofNat 12 k) =
      some (BitVec.ofNat 8 ((s.limb i j).toNat / 2 ^ (8 * k)))) ∧
  (∀ (s : State) (off : BitVec 12) (width : Nat) (v : BitVec 64) (rest : List HostEvent) (i : RegIx) (j : Fin 5)
    (part : Part), resolve off width = some (.limb i j part) → HostMoves s (.write off width v) rest →
    ∃ t, step s = .next t ∧ ∀ k, 8 * k < width →
      windowByte t (off + BitVec.ofNat 12 k) = some (BitVec.ofNat 8 (v.toNat / 2 ^ (8 * k))))

/-- R59. A write to ID, VERSION, PARAM, STATUS or FAULT_CMD is accepted and changes nothing, a read of CMD returns 0 and
changes nothing, and the reserved bits of a TAG write make no difference to the register. -/
def Obligations.ReadOnlyWritesAreIgnored : Prop :=
  (∀ (s : State) (off : BitVec 12) (v : BitVec 64) (rest : List HostEvent),
    (off = 0x000#12 ∨ off = 0x004#12 ∨ off = 0x008#12 ∨ off = 0x014#12 ∨ off = 0x018#12) →
    HostMoves s (.write off 32 v) rest →
    step s = .next { s with host := rest, responses := s.responses ++ [.accepted] }) ∧
  (∀ (s : State) (rest : List HostEvent), HostMoves s (.read 0x010#12 32) rest →
    step s = .next { s with host := rest, responses := s.responses ++ [.data 0#64] }) ∧
  (∀ (s : State) (i : RegIx) (x y : Word), x.toNat % 64 = y.toNat % 64 → x.getLsbD 8 = y.getLsbD 8 →
    (tagWrite s i x).feReg i = (tagWrite s i y).feReg i)

/-- A limb write of 64 bits or of one half (R61): the addressed bits change, the register's tag is cleared in the same
step, the written-since-reset bit is set once both halves are written, nothing else of the block changes, whatever
STATUS.FAULT is. That a limb's written bit is kept as one per half, of which each half write sets its own, is the model's
choice (log entry 9); R36 names one bit per limb. -/
def Obligations.LimbWriteClearsTag : Prop :=
  ∀ (s : State) (i : RegIx) (j : Fin 5) (off : BitVec 12) (width : Nat) (v : BitVec 64) (rest : List HostEvent),
    ((off = limbOffset i j ∧ (width = 64 ∨ width = 32)) ∨ (off = limbOffset i j + 4#12 ∧ width = 32)) →
    HostMoves s (.write off width v) rest →
    ∃ t, step s = .next t ∧
      (width = 64 → t.limb i j = v ∧ ((t.feReg i).n[j]).written = true) ∧
      (width = 32 → off = limbOffset i j →
        loHalf (t.limb i j) = loHalf v ∧ hiHalf (t.limb i j) = hiHalf (s.limb i j) ∧
        ((t.feReg i).n[j]).loWritten = true ∧ ((t.feReg i).n[j]).hiWritten = ((s.feReg i).n[j]).hiWritten) ∧
      (off = limbOffset i j + 4#12 →
        hiHalf (t.limb i j) = loHalf v ∧ loHalf (t.limb i j) = loHalf (s.limb i j) ∧
        ((t.feReg i).n[j]).hiWritten = true ∧ ((t.feReg i).n[j]).loWritten = ((s.feReg i).n[j]).loWritten) ∧
      (((t.feReg i).n[j]).written = (((t.feReg i).n[j]).loWritten && ((t.feReg i).n[j]).hiWritten)) ∧
      TagCleared t i ∧ (∀ l, l ≠ j → t.limb i l = s.limb i l ∧ ((t.feReg i).n[l]) = ((s.feReg i).n[l])) ∧
      (∀ k, k ≠ i → SameReg s t k ∧ SameTag s t k) ∧ SameFaultRegs s t ∧ t.inflight = s.inflight ∧ t.busy = s.busy

/-- R62. A TAG write of t with m = t[5:0] and z = t[8]: with an unwritten limb it is the model fault; a passing check sets
the tag; a failing one clears it and raises TAG_INVALID; limbs and all other registers stay. -/
def Obligations.TagWriteChecks : Prop :=
  ∀ (s : State) (i : RegIx) (v : BitVec 64) (m : Nat) (z : Bool) (rest : List HostEvent),
    HostMoves s (.write (tagOffset i) 32 v) rest → m = v.toNat % 64 → z = v.getLsbD 8 →
    (s.allWritten i = false → step s = .fault (.unwrittenLimbs i)) ∧
    (s.allWritten i = true →
      ∃ t, step s = .next t ∧ t.limbs i = s.limbs i ∧ (∀ k, k ≠ i → SameReg s t k ∧ SameTag s t k) ∧
        ((1 ≤ m ∧ m ≤ 32 ∧ HasMagnitude m (s.limbs i) ∧ (z = true → m = 1 ∧ Canonical (s.limbs i))) →
          (t.mag i).toNat = m ∧ t.norm i = z ∧ t.valid i = true ∧ SameFaultRegs s t) ∧
        (¬ (1 ≤ m ∧ m ≤ 32 ∧ HasMagnitude m (s.limbs i) ∧ (z = true → m = 1 ∧ Canonical (s.limbs i))) →
          TagCleared t i ∧ (s.fault = false → Recorded t .tagInvalid i (loHalf v)) ∧
          (s.fault = true → SameFaultRegs s t)))

/-- R65. While a command is in flight, an access that reaches the block then completes at once if it reads ID, VERSION,
PARAM, STATUS or FAULT_CMD, and ends in BusError at once if it reaches no register; every other access is held: the next
step completes the command and the access is still the next event, so that nothing is dropped or reordered. -/
def Obligations.AccessesAreHeldWhileBusy : Prop :=
  ∀ (s : State) (w : Word) (a : HostAction) (rest : List HostEvent), s.inflight = some w →
    s.host = { arrival := .whileBusy, action := a } :: rest →
    (∀ off, (off = 0x000#12 ∨ off = 0x004#12 ∨ off = 0x008#12 ∨ off = 0x014#12 ∨ off = 0x018#12) → a = .read off 32 →
      ∃ v, step s = .next { s with host := rest, responses := s.responses ++ [.data v] }) ∧
    (∀ off width v, (a = .read off width ∨ a = .write off width v) → resolve off width = none →
      step s = .next { s with host := rest, responses := s.responses ++ [.busError] }) ∧
    (∀ off width v, (a = .write off width v ∧ (resolve off width).isSome = true) ∨
        (a = .read off width ∧ (resolve off width).isSome = true ∧
          ¬ (off = 0x000#12 ∨ off = 0x004#12 ∨ off = 0x008#12 ∨ off = 0x014#12 ∨ off = 0x018#12)) →
      ∃ t, step s = .next t ∧ Idle t ∧ t.host = s.host ∧ t.responses = s.responses)

/-! ### Host-side reference functions -/

/-- LOADFE puts a host value in a register (R189): with a passing check FE[i] holds (n, mag, norm) with VALID = 1; else
FE[i] is invalid and TAG_INVALID is recorded, if no fault was. -/
def Obligations.LoadFeLoadsHostValue : Prop :=
  ∀ (s : State) (i : RegIx) (x : HostValue), x.mag < 64 →
    ∃ t, serve s (loadFe i x) = .next t ∧ t.limbs i = x.n ∧ (∀ k, k ≠ i → SameReg s t k ∧ SameTag s t k) ∧
      ((1 ≤ x.mag ∧ x.mag ≤ 32 ∧ HasMagnitude x.mag x.n ∧ (x.norm = true → x.mag = 1 ∧ Canonical x.n)) →
        (t.mag i).toNat = x.mag ∧ t.norm i = x.norm ∧ t.valid i = true ∧ SameFaultRegs s t) ∧
      (¬ (1 ≤ x.mag ∧ x.mag ≤ 32 ∧ HasMagnitude x.mag x.n ∧ (x.norm = true → x.mag = 1 ∧ Canonical x.n)) →
        TagCleared t i ∧ (s.fault = false → Recorded t .tagInvalid i (loadTag x)))

/-- STOREFE reads a valid register back (R190): the six responses give (n, MAG, NORM), and the block is unchanged. -/
def Obligations.StoreFeReadsBack : Prop :=
  ∀ (s : State) (i : RegIx), s.valid i = true →
    ∃ rs, serve s (storeFe i) = .next { s with responses := s.responses ++ rs } ∧
      storedValue rs = some { n := s.limbs i, mag := (s.mag i).toNat, norm := s.norm i }

/-- negate with the corrected constants (R184): no underflow, magnitude M + 1, value 2·(M+1)·p − val(a), so congruent to
−a. -/
def Obligations.NegateNegatesModP : Prop :=
  ∀ (a : HostValue) (m : Nat), HasMagnitude a.mag a.n → a.mag ≤ m → m + 1 ≤ 32 →
    ∃ b, negate a m = some b ∧ b.mag = m + 1 ∧ b.norm = false ∧ HasMagnitude (m + 1) b.n ∧
      valueOf b.n + valueOf a.n = 2 * (m + 1) * Config.p ∧ (valueOf b.n + valueOf a.n) % Config.p = 0

/-- mul_int multiplies value and magnitude (R185); set_int makes a canonical element of value a (R181). -/
def Obligations.SmallIntegersMultiply : Prop :=
  (∀ (a : HostValue) (k : Nat), HasMagnitude a.mag a.n → 1 ≤ k → a.mag * k ≤ 32 →
    ∃ b, mulInt a k = some b ∧ b.mag = a.mag * k ∧ b.norm = false ∧ HasMagnitude b.mag b.n ∧
      valueOf b.n = valueOf a.n * k) ∧
  (∀ a : Nat, a < 2 ^ 52 → ∃ x, setInt a = some x ∧ x.mag = 1 ∧ x.norm = true ∧ Canonical x.n ∧ valueOf x.n = a)

/-- The 32-byte serialization is a bijection on normalized values (R182, R183). -/
def Obligations.BytesRoundTrip : Prop :=
  (∀ buf, toBytes (setFromBytes buf) = some buf) ∧
  (∀ x : HostValue, x.norm = true → x.mag = 1 → Canonical x.n → ∃ buf, toBytes x = some buf ∧ setFromBytes buf = x)

/-- On normalized values the host's predicates are those of the field (R186, R187, R188). -/
def Obligations.HostPredicatesAreFieldPredicates : Prop :=
  ∀ x y : HostValue, x.norm = true → y.norm = true → Canonical x.n → Canonical y.n →
    hostEqual x y = some (decide (valueOf x.n % Config.p = valueOf y.n % Config.p)) ∧
    isZero x = some (decide (valueOf x.n % Config.p = 0)) ∧
    isOdd x = some (decide (valueOf x.n % 2 = 1))
end

