-- ==== Sys2Proof/Laws/State.lean ====
section
/-!
SUPPORT. One lemma per field of State per update, each true by rfl, so that no proof unfolds an update of the state.
The register file's own lemmas stand in Laws/RegisterFile.lean, those of raiseFault in Laws/Ops.lean.
-/

namespace Sys2Proof.Machine

variable (s : State)

/-! ### setFeReg -/

@[simp] theorem State.setFeReg_fe (i : RegIx) (x : FeReg) : (s.setFeReg i x).fe = s.fe.set i.toNat x i.isLt := rfl
@[simp] theorem State.setFeReg_busy (i : RegIx) (x : FeReg) : (s.setFeReg i x).busy = s.busy := rfl
@[simp] theorem State.setFeReg_fault (i : RegIx) (x : FeReg) : (s.setFeReg i x).fault = s.fault := rfl
@[simp] theorem State.setFeReg_cause (i : RegIx) (x : FeReg) : (s.setFeReg i x).cause = s.cause := rfl
@[simp] theorem State.setFeReg_freg (i : RegIx) (x : FeReg) : (s.setFeReg i x).freg = s.freg := rfl
@[simp] theorem State.setFeReg_faultCmd (i : RegIx) (x : FeReg) : (s.setFeReg i x).faultCmd = s.faultCmd := rfl
@[simp] theorem State.setFeReg_inflight (i : RegIx) (x : FeReg) : (s.setFeReg i x).inflight = s.inflight := rfl
@[simp] theorem State.setFeReg_epoch (i : RegIx) (x : FeReg) : (s.setFeReg i x).epoch = s.epoch := rfl
@[simp] theorem State.setFeReg_host (i : RegIx) (x : FeReg) : (s.setFeReg i x).host = s.host := rfl
@[simp] theorem State.setFeReg_responses (i : RegIx) (x : FeReg) : (s.setFeReg i x).responses = s.responses := rfl

/-! ### accept -/

@[simp] theorem State.accept_fe (w : Word) : (s.accept w).fe = s.fe := rfl
@[simp] theorem State.accept_busy (w : Word) : (s.accept w).busy = true := rfl
@[simp] theorem State.accept_fault (w : Word) : (s.accept w).fault = s.fault := rfl
@[simp] theorem State.accept_cause (w : Word) : (s.accept w).cause = s.cause := rfl
@[simp] theorem State.accept_freg (w : Word) : (s.accept w).freg = s.freg := rfl
@[simp] theorem State.accept_faultCmd (w : Word) : (s.accept w).faultCmd = s.faultCmd := rfl
@[simp] theorem State.accept_inflight (w : Word) : (s.accept w).inflight = some w := rfl
@[simp] theorem State.accept_epoch (w : Word) : (s.accept w).epoch = s.epoch := rfl
@[simp] theorem State.accept_host (w : Word) : (s.accept w).host = s.host := rfl
@[simp] theorem State.accept_responses (w : Word) : (s.accept w).responses = s.responses := rfl

/-! ### complete -/

@[simp] theorem State.complete_fe : s.complete.fe = s.fe := rfl
@[simp] theorem State.complete_busy : s.complete.busy = false := rfl
@[simp] theorem State.complete_fault : s.complete.fault = s.fault := rfl
@[simp] theorem State.complete_cause : s.complete.cause = s.cause := rfl
@[simp] theorem State.complete_freg : s.complete.freg = s.freg := rfl
@[simp] theorem State.complete_faultCmd : s.complete.faultCmd = s.faultCmd := rfl
@[simp] theorem State.complete_inflight : s.complete.inflight = none := rfl
@[simp] theorem State.complete_epoch : s.complete.epoch = s.epoch := rfl
@[simp] theorem State.complete_host : s.complete.host = s.host := rfl
@[simp] theorem State.complete_responses : s.complete.responses = s.responses := rfl

/-! ### respond -/

@[simp] theorem State.respond_fe (r : Response) : (s.respond r).fe = s.fe := rfl
@[simp] theorem State.respond_busy (r : Response) : (s.respond r).busy = s.busy := rfl
@[simp] theorem State.respond_fault (r : Response) : (s.respond r).fault = s.fault := rfl
@[simp] theorem State.respond_cause (r : Response) : (s.respond r).cause = s.cause := rfl
@[simp] theorem State.respond_freg (r : Response) : (s.respond r).freg = s.freg := rfl
@[simp] theorem State.respond_faultCmd (r : Response) : (s.respond r).faultCmd = s.faultCmd := rfl
@[simp] theorem State.respond_inflight (r : Response) : (s.respond r).inflight = s.inflight := rfl
@[simp] theorem State.respond_epoch (r : Response) : (s.respond r).epoch = s.epoch := rfl
@[simp] theorem State.respond_host (r : Response) : (s.respond r).host = s.host := rfl
@[simp] theorem State.respond_responses (r : Response) : (s.respond r).responses = s.responses ++ [r] := rfl

/-! ### withHost -/

@[simp] theorem State.withHost_fe (es : List HostEvent) : (s.withHost es).fe = s.fe := rfl
@[simp] theorem State.withHost_busy (es : List HostEvent) : (s.withHost es).busy = s.busy := rfl
@[simp] theorem State.withHost_fault (es : List HostEvent) : (s.withHost es).fault = s.fault := rfl
@[simp] theorem State.withHost_cause (es : List HostEvent) : (s.withHost es).cause = s.cause := rfl
@[simp] theorem State.withHost_freg (es : List HostEvent) : (s.withHost es).freg = s.freg := rfl
@[simp] theorem State.withHost_faultCmd (es : List HostEvent) : (s.withHost es).faultCmd = s.faultCmd := rfl
@[simp] theorem State.withHost_inflight (es : List HostEvent) : (s.withHost es).inflight = s.inflight := rfl
@[simp] theorem State.withHost_epoch (es : List HostEvent) : (s.withHost es).epoch = s.epoch := rfl
@[simp] theorem State.withHost_host (es : List HostEvent) : (s.withHost es).host = s.host ++ es := rfl
@[simp] theorem State.withHost_responses (es : List HostEvent) : (s.withHost es).responses = s.responses := rfl

/-! ### writeFe -/

@[simp] theorem State.writeFe_busy (i : RegIx) (n : Limbs) (m : BitVec 6) (z : Bool) :
    (s.writeFe i n m z).busy = s.busy := rfl
@[simp] theorem State.writeFe_fault (i : RegIx) (n : Limbs) (m : BitVec 6) (z : Bool) :
    (s.writeFe i n m z).fault = s.fault := rfl
@[simp] theorem State.writeFe_cause (i : RegIx) (n : Limbs) (m : BitVec 6) (z : Bool) :
    (s.writeFe i n m z).cause = s.cause := rfl
@[simp] theorem State.writeFe_freg (i : RegIx) (n : Limbs) (m : BitVec 6) (z : Bool) :
    (s.writeFe i n m z).freg = s.freg := rfl
@[simp] theorem State.writeFe_faultCmd (i : RegIx) (n : Limbs) (m : BitVec 6) (z : Bool) :
    (s.writeFe i n m z).faultCmd = s.faultCmd := rfl
@[simp] theorem State.writeFe_inflight (i : RegIx) (n : Limbs) (m : BitVec 6) (z : Bool) :
    (s.writeFe i n m z).inflight = s.inflight := rfl
@[simp] theorem State.writeFe_epoch (i : RegIx) (n : Limbs) (m : BitVec 6) (z : Bool) :
    (s.writeFe i n m z).epoch = s.epoch := rfl
@[simp] theorem State.writeFe_host (i : RegIx) (n : Limbs) (m : BitVec 6) (z : Bool) :
    (s.writeFe i n m z).host = s.host := rfl
@[simp] theorem State.writeFe_responses (i : RegIx) (n : Limbs) (m : BitVec 6) (z : Bool) :
    (s.writeFe i n m z).responses = s.responses := rfl

/-! ### clearTag -/

@[simp] theorem State.clearTag_busy (i : RegIx) : (s.clearTag i).busy = s.busy := rfl
@[simp] theorem State.clearTag_fault (i : RegIx) : (s.clearTag i).fault = s.fault := rfl
@[simp] theorem State.clearTag_cause (i : RegIx) : (s.clearTag i).cause = s.cause := rfl
@[simp] theorem State.clearTag_freg (i : RegIx) : (s.clearTag i).freg = s.freg := rfl
@[simp] theorem State.clearTag_faultCmd (i : RegIx) : (s.clearTag i).faultCmd = s.faultCmd := rfl
@[simp] theorem State.clearTag_inflight (i : RegIx) : (s.clearTag i).inflight = s.inflight := rfl
@[simp] theorem State.clearTag_epoch (i : RegIx) : (s.clearTag i).epoch = s.epoch := rfl
@[simp] theorem State.clearTag_host (i : RegIx) : (s.clearTag i).host = s.host := rfl
@[simp] theorem State.clearTag_responses (i : RegIx) : (s.clearTag i).responses = s.responses := rfl

/-! ### setTag -/

@[simp] theorem State.setTag_busy (i : RegIx) (m : BitVec 6) (z : Bool) : (s.setTag i m z).busy = s.busy := rfl
@[simp] theorem State.setTag_fault (i : RegIx) (m : BitVec 6) (z : Bool) : (s.setTag i m z).fault = s.fault := rfl
@[simp] theorem State.setTag_cause (i : RegIx) (m : BitVec 6) (z : Bool) : (s.setTag i m z).cause = s.cause := rfl
@[simp] theorem State.setTag_freg (i : RegIx) (m : BitVec 6) (z : Bool) : (s.setTag i m z).freg = s.freg := rfl
@[simp] theorem State.setTag_faultCmd (i : RegIx) (m : BitVec 6) (z : Bool) :
    (s.setTag i m z).faultCmd = s.faultCmd := rfl
@[simp] theorem State.setTag_inflight (i : RegIx) (m : BitVec 6) (z : Bool) :
    (s.setTag i m z).inflight = s.inflight := rfl
@[simp] theorem State.setTag_epoch (i : RegIx) (m : BitVec 6) (z : Bool) : (s.setTag i m z).epoch = s.epoch := rfl
@[simp] theorem State.setTag_host (i : RegIx) (m : BitVec 6) (z : Bool) : (s.setTag i m z).host = s.host := rfl
@[simp] theorem State.setTag_responses (i : RegIx) (m : BitVec 6) (z : Bool) :
    (s.setTag i m z).responses = s.responses := rfl

/-! ### writeCell -/

@[simp] theorem State.writeCell_busy (i : RegIx) (j : Fin 5) (c : LimbCell) : (s.writeCell i j c).busy = s.busy := rfl
@[simp] theorem State.writeCell_fault (i : RegIx) (j : Fin 5) (c : LimbCell) :
    (s.writeCell i j c).fault = s.fault := rfl
@[simp] theorem State.writeCell_cause (i : RegIx) (j : Fin 5) (c : LimbCell) :
    (s.writeCell i j c).cause = s.cause := rfl
@[simp] theorem State.writeCell_freg (i : RegIx) (j : Fin 5) (c : LimbCell) : (s.writeCell i j c).freg = s.freg := rfl
@[simp] theorem State.writeCell_faultCmd (i : RegIx) (j : Fin 5) (c : LimbCell) :
    (s.writeCell i j c).faultCmd = s.faultCmd := rfl
@[simp] theorem State.writeCell_inflight (i : RegIx) (j : Fin 5) (c : LimbCell) :
    (s.writeCell i j c).inflight = s.inflight := rfl
@[simp] theorem State.writeCell_epoch (i : RegIx) (j : Fin 5) (c : LimbCell) :
    (s.writeCell i j c).epoch = s.epoch := rfl
@[simp] theorem State.writeCell_host (i : RegIx) (j : Fin 5) (c : LimbCell) : (s.writeCell i j c).host = s.host := rfl
@[simp] theorem State.writeCell_responses (i : RegIx) (j : Fin 5) (c : LimbCell) :
    (s.writeCell i j c).responses = s.responses := rfl

/-! ### platformReset -/

@[simp] theorem State.platformReset_fe : s.platformReset.fe = State.reset.fe := rfl
@[simp] theorem State.platformReset_busy : s.platformReset.busy = false := rfl
@[simp] theorem State.platformReset_fault : s.platformReset.fault = false := rfl
@[simp] theorem State.platformReset_cause : s.platformReset.cause = .none := rfl
@[simp] theorem State.platformReset_freg : s.platformReset.freg = 0#4 := rfl
@[simp] theorem State.platformReset_faultCmd : s.platformReset.faultCmd = 0#32 := rfl
@[simp] theorem State.platformReset_inflight : s.platformReset.inflight = none := rfl
@[simp] theorem State.platformReset_epoch : s.platformReset.epoch = s.epoch + 1 := rfl
@[simp] theorem State.platformReset_host : s.platformReset.host = s.host := rfl
@[simp] theorem State.platformReset_responses : s.platformReset.responses = s.responses := rfl

/-! ### setHost -/

@[simp] theorem State.setHost_fe (es : List HostEvent) : (s.setHost es).fe = s.fe := rfl
@[simp] theorem State.setHost_busy (es : List HostEvent) : (s.setHost es).busy = s.busy := rfl
@[simp] theorem State.setHost_fault (es : List HostEvent) : (s.setHost es).fault = s.fault := rfl
@[simp] theorem State.setHost_cause (es : List HostEvent) : (s.setHost es).cause = s.cause := rfl
@[simp] theorem State.setHost_freg (es : List HostEvent) : (s.setHost es).freg = s.freg := rfl
@[simp] theorem State.setHost_faultCmd (es : List HostEvent) : (s.setHost es).faultCmd = s.faultCmd := rfl
@[simp] theorem State.setHost_inflight (es : List HostEvent) : (s.setHost es).inflight = s.inflight := rfl
@[simp] theorem State.setHost_epoch (es : List HostEvent) : (s.setHost es).epoch = s.epoch := rfl
@[simp] theorem State.setHost_host (es : List HostEvent) : (s.setHost es).host = es := rfl
@[simp] theorem State.setHost_responses (es : List HostEvent) : (s.setHost es).responses = s.responses := rfl

end Sys2Proof.Machine
end

