-- ==== Sys2Proof/Laws/RegisterFile.lean ====
section
/-!
SUPPORT. The register file: a read after a write of the same register gives what was written, and every other register
is left alone (spec/10_state.md R20; spec/20_memory.md R61, R63). Later proofs cite these and never unfold the vectors.
-/

namespace Sys2Proof.Machine

variable (s : State) (i k : RegIx)

/-! ### Registers -/

@[simp] theorem State.feReg_setFeReg_same (x : FeReg) : (s.setFeReg i x).feReg i = x := by
  simp [State.feReg, State.setFeReg]

theorem State.feReg_setFeReg_other (x : FeReg) (h : k ≠ i) : (s.setFeReg i x).feReg k = s.feReg k := by
  have hn : i.toNat ≠ k.toNat := fun e => h (BitVec.eq_of_toNat_eq e.symm)
  simp [State.feReg, State.setFeReg, hn]

/-- Two states with the same registers as read one by one have the same register file. -/
theorem State.fe_ext {s t : State} (h : ∀ i, s.feReg i = t.feReg i) : s.fe = t.fe := by
  apply Vector.ext
  intro n hn
  have := h (BitVec.ofNat 4 n)
  simpa [State.feReg, Nat.mod_eq_of_lt hn] using this

/-- What a reader of a register sees depends on the register and the reset counter only. -/
theorem State.feReg_congr {s t : State} (h : s.fe = t.fe) : s.feReg i = t.feReg i := by simp [State.feReg, h]

theorem State.limb_congr {s t : State} (h : s.feReg i = t.feReg i) (he : s.epoch = t.epoch) (j : Fin 5) :
    s.limb i j = t.limb i j := by simp [State.limb, h, he]

theorem State.limbs_congr {s t : State} (h : s.feReg i = t.feReg i) (he : s.epoch = t.epoch) :
    s.limbs i = t.limbs i := by simp [State.limbs, State.limb_congr i h he]

/-! ### Cells -/

@[simp] theorem loHalf_joinHalves (hi lo : Word) : loHalf (joinHalves hi lo) = lo := by
  apply BitVec.eq_of_getLsbD_eq
  intro n hn
  rw [loHalf, joinHalves, BitVec.getLsbD_extractLsb', BitVec.getLsbD_append]
  simp [hn]

@[simp] theorem hiHalf_joinHalves (hi lo : Word) : hiHalf (joinHalves hi lo) = hi := by
  apply BitVec.eq_of_getLsbD_eq
  intro n hn
  rw [hiHalf, joinHalves, BitVec.getLsbD_extractLsb', BitVec.getLsbD_append]
  simp [hn]

@[simp] theorem joinHalves_halves (v : Limb) : joinHalves (hiHalf v) (loHalf v) = v := by
  apply BitVec.eq_of_getLsbD_eq
  intro n hn
  rw [joinHalves, hiHalf, loHalf, BitVec.getLsbD_append, BitVec.getLsbD_extractLsb', BitVec.getLsbD_extractLsb']
  split <;> rename_i h
  · simp [h]
  · have : n - 32 < 32 := by omega
    have e : 32 + (n - 32) = n := by omega
    simp [this, e]

@[simp] theorem LimbCell.read_ofLimb (v d : Limb) : (LimbCell.ofLimb v).read d = v := by
  simp [LimbCell.read, LimbCell.ofLimb]

@[simp] theorem LimbCell.written_ofLimb (v : Limb) : (LimbCell.ofLimb v).written = true := rfl

/-- The half written is the half read; the other half reads as before. -/
theorem LimbCell.read_withLo (c : LimbCell) (v : Word) (d : Limb) :
    (c.withLo v).read d = joinHalves (hiHalf (c.read d)) v := by
  simp [LimbCell.read, LimbCell.withLo]

theorem LimbCell.read_withHi (c : LimbCell) (v : Word) (d : Limb) :
    (c.withHi v).read d = joinHalves v (loHalf (c.read d)) := by
  simp [LimbCell.read, LimbCell.withHi]

/-! ### Commands' writes -/

section writeFe
variable (n : Limbs) (m : BitVec 6) (z : Bool)

@[simp] theorem State.limbs_writeFe_same : (s.writeFe i n m z).limbs i = n := by
  simp only [State.limbs, State.limb, State.writeFe, State.feReg_setFeReg_same]
  change Limbs.mk ((LimbCell.ofLimb n.n0).read _) ((LimbCell.ofLimb n.n1).read _) ((LimbCell.ofLimb n.n2).read _)
    ((LimbCell.ofLimb n.n3).read _) ((LimbCell.ofLimb n.n4).read _) = n
  simp only [LimbCell.read_ofLimb]

@[simp] theorem State.mag_writeFe_same : (s.writeFe i n m z).mag i = m := by simp [State.mag, State.writeFe]

@[simp] theorem State.norm_writeFe_same : (s.writeFe i n m z).norm i = z := by simp [State.norm, State.writeFe]

@[simp] theorem State.valid_writeFe_same : (s.writeFe i n m z).valid i = true := by simp [State.valid, State.writeFe]

@[simp] theorem State.allWritten_writeFe_same : (s.writeFe i n m z).allWritten i = true := by
  simp [State.allWritten, State.writeFe, cellsOf]

theorem State.feReg_writeFe_other (h : k ≠ i) : (s.writeFe i n m z).feReg k = s.feReg k :=
  s.feReg_setFeReg_other i k _ h

end writeFe

/-! ### The host's writes -/

theorem State.feReg_clearTag_other (h : k ≠ i) : (s.clearTag i).feReg k = s.feReg k :=
  s.feReg_setFeReg_other i k _ h

theorem State.feReg_setTag_other (m : BitVec 6) (z : Bool) (h : k ≠ i) : (s.setTag i m z).feReg k = s.feReg k :=
  s.feReg_setFeReg_other i k _ h

theorem State.feReg_writeCell_other (j : Fin 5) (c : LimbCell) (h : k ≠ i) :
    (s.writeCell i j c).feReg k = s.feReg k :=
  s.feReg_setFeReg_other i k _ h

@[simp] theorem State.limbs_clearTag : (s.clearTag i).limbs i = s.limbs i := by
  simp [State.limbs, State.limb, State.clearTag]

@[simp] theorem State.allWritten_clearTag : (s.clearTag i).allWritten i = s.allWritten i := by
  simp [State.allWritten, State.clearTag]

@[simp] theorem State.valid_clearTag : (s.clearTag i).valid i = false := by simp [State.valid, State.clearTag]

@[simp] theorem State.mag_clearTag : (s.clearTag i).mag i = 0#6 := by simp [State.mag, State.clearTag]

@[simp] theorem State.norm_clearTag : (s.clearTag i).norm i = false := by simp [State.norm, State.clearTag]

section setTag
variable (m : BitVec 6) (z : Bool)

@[simp] theorem State.limbs_setTag : (s.setTag i m z).limbs i = s.limbs i := by
  simp [State.limbs, State.limb, State.setTag]

@[simp] theorem State.allWritten_setTag : (s.setTag i m z).allWritten i = s.allWritten i := by
  simp [State.allWritten, State.setTag]

@[simp] theorem State.valid_setTag : (s.setTag i m z).valid i = true := by simp [State.valid, State.setTag]

@[simp] theorem State.mag_setTag : (s.setTag i m z).mag i = m := by simp [State.mag, State.setTag]

@[simp] theorem State.norm_setTag : (s.setTag i m z).norm i = z := by simp [State.norm, State.setTag]

end setTag

section writeCell
variable (j : Fin 5) (c : LimbCell)

@[simp] theorem State.limb_writeCell_same :
    (s.writeCell i j c).limb i j = c.read (Config.unwrittenLimb s.epoch i j) := by
  simp [State.limb, State.writeCell]

theorem State.limb_writeCell_other (l : Fin 5) (h : l ≠ j) : (s.writeCell i j c).limb i l = s.limb i l := by
  have hn : j.val ≠ l.val := fun e => h (Fin.ext e.symm)
  simp [State.limb, State.writeCell, hn]

@[simp] theorem State.valid_writeCell : (s.writeCell i j c).valid i = false := by
  simp [State.valid, State.writeCell]

@[simp] theorem State.mag_writeCell : (s.writeCell i j c).mag i = 0#6 := by simp [State.mag, State.writeCell]

@[simp] theorem State.norm_writeCell : (s.writeCell i j c).norm i = false := by simp [State.norm, State.writeCell]

end writeCell

/-! ### Updates that leave the register file alone -/

@[simp] theorem State.feReg_complete : s.complete.feReg i = s.feReg i := rfl

@[simp] theorem State.feReg_accept (w : Word) : (s.accept w).feReg i = s.feReg i := rfl

@[simp] theorem State.feReg_respond (r : Response) : (s.respond r).feReg i = s.feReg i := rfl

@[simp] theorem State.limbs_complete : s.complete.limbs i = s.limbs i := rfl

@[simp] theorem State.limbs_respond (r : Response) : (s.respond r).limbs i = s.limbs i := rfl

@[simp] theorem State.mag_complete : s.complete.mag i = s.mag i := rfl

@[simp] theorem State.mag_respond (r : Response) : (s.respond r).mag i = s.mag i := rfl

@[simp] theorem State.norm_complete : s.complete.norm i = s.norm i := rfl

@[simp] theorem State.norm_respond (r : Response) : (s.respond r).norm i = s.norm i := rfl

@[simp] theorem State.valid_complete : s.complete.valid i = s.valid i := rfl

@[simp] theorem State.valid_respond (r : Response) : (s.respond r).valid i = s.valid i := rfl

@[simp] theorem State.allWritten_complete : s.complete.allWritten i = s.allWritten i := rfl

@[simp] theorem State.allWritten_respond (r : Response) : (s.respond r).allWritten i = s.allWritten i := rfl

@[simp] theorem State.feReg_setHost (es : List HostEvent) : (s.setHost es).feReg i = s.feReg i := rfl

@[simp] theorem State.limbs_setHost (es : List HostEvent) : (s.setHost es).limbs i = s.limbs i := rfl

@[simp] theorem State.mag_setHost (es : List HostEvent) : (s.setHost es).mag i = s.mag i := rfl

@[simp] theorem State.norm_setHost (es : List HostEvent) : (s.setHost es).norm i = s.norm i := rfl

@[simp] theorem State.valid_setHost (es : List HostEvent) : (s.setHost es).valid i = s.valid i := rfl

@[simp] theorem State.allWritten_setHost (es : List HostEvent) : (s.setHost es).allWritten i = s.allWritten i := rfl

@[simp] theorem State.limb_setHost (es : List HostEvent) (j : Fin 5) : (s.setHost es).limb i j = s.limb i j := rfl

@[simp] theorem State.limb_complete (j : Fin 5) : s.complete.limb i j = s.limb i j := rfl

@[simp] theorem State.limb_respond (r : Response) (j : Fin 5) : (s.respond r).limb i j = s.limb i j := rfl

end Sys2Proof.Machine
end

