-- ==== Sys2Proof/Laws/Ops.lean ====
section
/-!
SUPPORT. The shared operations, each once: recording a fault (spec/60_exceptions.md R203), completing a command, the
checks before a command, and reset. A proof about a command cites these instead of unfolding it.
-/

namespace Sys2Proof.Machine

variable (s : State)

/-! ### raiseFault -/

section raiseFault
variable (c : Cause) (f : RegIx) (w : Word)

@[simp] theorem State.raiseFault_fe : (s.raiseFault c f w).fe = s.fe := by unfold State.raiseFault; split <;> rfl

@[simp] theorem State.raiseFault_busy : (s.raiseFault c f w).busy = s.busy := by
  unfold State.raiseFault; split <;> rfl

@[simp] theorem State.raiseFault_inflight : (s.raiseFault c f w).inflight = s.inflight := by
  unfold State.raiseFault; split <;> rfl

@[simp] theorem State.raiseFault_epoch : (s.raiseFault c f w).epoch = s.epoch := by
  unfold State.raiseFault; split <;> rfl

@[simp] theorem State.raiseFault_host : (s.raiseFault c f w).host = s.host := by
  unfold State.raiseFault; split <;> rfl

@[simp] theorem State.raiseFault_responses : (s.raiseFault c f w).responses = s.responses := by
  unfold State.raiseFault; split <;> rfl

@[simp] theorem State.raiseFault_fault : (s.raiseFault c f w).fault = true := by
  unfold State.raiseFault; split <;> simp_all

/-- Everything raiseFault can do: keep the first fault, or record this one. -/
theorem State.raiseFault_cases :
    (s.fault = true ∧ s.raiseFault c f w = s) ∨
      (s.fault = false ∧ s.raiseFault c f w = { s with fault := true, cause := c, freg := f, faultCmd := w }) := by
  unfold State.raiseFault
  cases s.fault <;> simp

theorem State.raiseFault_of_fault (h : s.fault = true) : s.raiseFault c f w = s := by simp [State.raiseFault, h]

@[simp] theorem State.feReg_raiseFault (i : RegIx) : (s.raiseFault c f w).feReg i = s.feReg i := by
  simp [State.feReg]

@[simp] theorem State.limbs_raiseFault (i : RegIx) : (s.raiseFault c f w).limbs i = s.limbs i := by
  simp [State.limbs, State.limb]

@[simp] theorem State.mag_raiseFault (i : RegIx) : (s.raiseFault c f w).mag i = s.mag i := by simp [State.mag]

@[simp] theorem State.norm_raiseFault (i : RegIx) : (s.raiseFault c f w).norm i = s.norm i := by simp [State.norm]

@[simp] theorem State.valid_raiseFault (i : RegIx) : (s.raiseFault c f w).valid i = s.valid i := by
  simp [State.valid]

@[simp] theorem State.allWritten_raiseFault (i : RegIx) : (s.raiseFault c f w).allWritten i = s.allWritten i := by
  simp [State.allWritten]

end raiseFault

/-! ### Outcomes of commands -/

theorem next_inj {σ φ ρ : Type} {a b : σ} : (Host.Outcome.next a : Host.Outcome σ φ ρ) = .next b ↔ a = b :=
  ⟨fun h => by cases h; rfl, fun h => by rw [h]⟩

/-- Everything the check of a source's VALID bit can do. -/
theorem requireValid_cases (i : RegIx) (w : Word) (rest : Result) :
    (s.valid i = true ∧ requireValid s i w rest = rest) ∨
      (s.valid i = false ∧ requireValid s i w rest = .next (s.raiseFault .uninitSrc i w).complete) := by
  unfold requireValid commandFault
  cases s.valid i <;> simp

/-- Everything the check of a source's MAG against MULMAG_MAX can do. -/
theorem requireMulMag_cases (i : RegIx) (w : Word) (rest : Result) :
    ((s.mag i).toNat ≤ 8 ∧ requireMulMag s i w rest = rest) ∨
      (8 < (s.mag i).toNat ∧ requireMulMag s i w rest = .next (s.raiseFault .mulMagnitude i w).complete) := by
  unfold requireMulMag commandFault Config.mulMagMax
  by_cases h : (s.mag i).toNat > 8
  · exact .inr ⟨h, if_pos h⟩
  · exact .inl ⟨by omega, if_neg h⟩

/-- Everything the check of a sum of magnitudes against MAG_MAX can do. -/
theorem requireAddMag_cases (d a b : RegIx) (w : Word) (rest : Result) :
    ((s.mag a).toNat + (s.mag b).toNat ≤ 32 ∧ requireAddMag s d a b w rest = rest) ∨
      (32 < (s.mag a).toNat + (s.mag b).toNat ∧
        requireAddMag s d a b w rest = .next (s.raiseFault .addMagnitude d w).complete) := by
  unfold requireAddMag commandFault Config.magMax
  by_cases h : (s.mag a).toNat + (s.mag b).toNat > 32
  · exact .inr ⟨h, if_pos h⟩
  · exact .inl ⟨by omega, if_neg h⟩

/-! ### Reset -/

theorem State.feReg_reset (i : RegIx) : State.reset.feReg i = FeReg.atReset := by
  simp [State.feReg, State.reset]

@[simp] theorem State.feReg_platformReset (i : RegIx) : s.platformReset.feReg i = FeReg.atReset :=
  State.feReg_reset i

end Sys2Proof.Machine
end

