-- ==== Sys2Proof/Laws/Commands.lean ====
section
/-!
SUPPORT. What each command can do, once: it answers a next state, which is the written destination or one recorded
fault, then completion. Every statement about a command's outcome goes through these.
-/

namespace Sys2Proof.Machine

/-- The two ways a command ends: a write of its destination, or a fault. -/
theorem exec_cases (i : Instr) (s : State) :
    (∃ n m z, exec i s = .next (s.writeFe (destOf i) n m z).complete) ∨
      (∃ c f, c ≠ .none ∧ exec i s = .next (s.raiseFault c f (encode i)).complete) := by
  cases i with
  | fadd d a b =>
    simp only [exec, execFadd, destOf]
    obtain ⟨_, h⟩ | ⟨_, h⟩ := requireValid_cases s a (encode (.fadd d a b)) _ <;> rw [h]
    · obtain ⟨_, h⟩ | ⟨_, h⟩ := requireValid_cases s b (encode (.fadd d a b)) _ <;> rw [h]
      · obtain ⟨_, h⟩ | ⟨_, h⟩ := requireAddMag_cases s d a b (encode (.fadd d a b)) _ <;> rw [h]
        · exact .inl ⟨_, _, _, rfl⟩
        · exact .inr ⟨_, _, by simp, rfl⟩
      · exact .inr ⟨_, _, by simp, rfl⟩
    · exact .inr ⟨_, _, by simp, rfl⟩
  | fmul d a b =>
    simp only [exec, execFmul, destOf]
    obtain ⟨_, h⟩ | ⟨_, h⟩ := requireValid_cases s a (encode (.fmul d a b)) _ <;> rw [h]
    · obtain ⟨_, h⟩ | ⟨_, h⟩ := requireValid_cases s b (encode (.fmul d a b)) _ <;> rw [h]
      · obtain ⟨_, h⟩ | ⟨_, h⟩ := requireMulMag_cases s a (encode (.fmul d a b)) _ <;> rw [h]
        · obtain ⟨_, h⟩ | ⟨_, h⟩ := requireMulMag_cases s b (encode (.fmul d a b)) _ <;> rw [h]
          · exact .inl ⟨_, _, _, rfl⟩
          · exact .inr ⟨_, _, by simp, rfl⟩
        · exact .inr ⟨_, _, by simp, rfl⟩
      · exact .inr ⟨_, _, by simp, rfl⟩
    · exact .inr ⟨_, _, by simp, rfl⟩
  | fsqr d a =>
    simp only [exec, execFsqr, destOf]
    obtain ⟨_, h⟩ | ⟨_, h⟩ := requireValid_cases s a (encode (.fsqr d a)) _ <;> rw [h]
    · obtain ⟨_, h⟩ | ⟨_, h⟩ := requireMulMag_cases s a (encode (.fsqr d a)) _ <;> rw [h]
      · exact .inl ⟨_, _, _, rfl⟩
      · exact .inr ⟨_, _, by simp, rfl⟩
    · exact .inr ⟨_, _, by simp, rfl⟩
  | fnorm d a =>
    simp only [exec, execFnorm, destOf]
    obtain ⟨_, h⟩ | ⟨_, h⟩ := requireValid_cases s a (encode (.fnorm d a)) _ <;> rw [h]
    · exact .inl ⟨_, _, _, rfl⟩
    · exact .inr ⟨_, _, by simp, rfl⟩

/-- FADD with its checks passed. -/
theorem exec_fadd_passes {s : State} {d a b : RegIx} (ha : s.valid a = true) (hb : s.valid b = true)
    (hm : (s.mag a).toNat + (s.mag b).toNat ≤ 32) :
    exec (.fadd d a b) s = .next (s.writeFe d (addLimbs (s.limbs a) (s.limbs b))
      (BitVec.ofNat 6 ((s.mag a).toNat + (s.mag b).toNat)) false).complete := by
  have : ¬ (s.mag a).toNat + (s.mag b).toNat > Config.magMax := by unfold Config.magMax; omega
  simp only [exec, execFadd, requireValid, ha, hb, requireAddMag, this, if_false, if_true, commandWrite]

/-- FMUL with its checks passed. -/
theorem exec_fmul_passes {s : State} {d a b : RegIx} (ha : s.valid a = true) (hb : s.valid b = true)
    (hma : (s.mag a).toNat ≤ 8) (hmb : (s.mag b).toNat ≤ 8) :
    exec (.fmul d a b) s = .next (s.writeFe d (reduce (cols (s.limbs a) (s.limbs b))) 1#6 false).complete := by
  have h1 : ¬ (s.mag a).toNat > Config.mulMagMax := by unfold Config.mulMagMax; omega
  have h2 : ¬ (s.mag b).toNat > Config.mulMagMax := by unfold Config.mulMagMax; omega
  simp only [exec, execFmul, requireValid, ha, hb, requireMulMag, h1, h2, if_false, if_true, commandWrite]

/-- FSQR with its checks passed. -/
theorem exec_fsqr_passes {s : State} {d a : RegIx} (ha : s.valid a = true) (hma : (s.mag a).toNat ≤ 8) :
    exec (.fsqr d a) s = .next (s.writeFe d (reduce (sqcols (s.limbs a))) 1#6 false).complete := by
  have h1 : ¬ (s.mag a).toNat > Config.mulMagMax := by unfold Config.mulMagMax; omega
  simp only [exec, execFsqr, requireValid, ha, requireMulMag, h1, if_false, if_true, commandWrite]

/-- FNORM with its check passed. -/
theorem exec_fnorm_passes {s : State} {d a : RegIx} (ha : s.valid a = true) :
    exec (.fnorm d a) s = .next (s.writeFe d (normalizeLimbs (s.limbs a)) 1#6 true).complete := by
  simp only [exec, execFnorm, requireValid, ha, if_true, commandWrite]

end Sys2Proof.Machine
end

