-- ==== Sys2Proof/Laws/Agents.lean ====
section
/-!
SUPPORT. Who moves next, and everything a step, a host action and a write can do (spec/20_memory.md R58 to R65, R72).
Every invariant of the step is a case analysis over these lemmas.
-/

namespace Sys2Proof.Machine

/-- In every state exactly one of these holds: the engine moves, the host or the platform moves, or the block waits. -/
theorem moves_cases (s : State) :
    (∃ w, EngineMoves s w) ∨ (∃ a rest, HostMoves s a rest) ∨ (s.inflight = none ∧ s.host = []) := by
  cases hi : s.inflight with
  | none =>
    cases hh : s.host with
    | nil => exact .inr (.inr ⟨rfl, rfl⟩)
    | cons e rest => exact .inr (.inl ⟨e.action, rest, e, hh, rfl, .inl hi⟩)
  | some w =>
    cases hh : s.host with
    | nil => exact .inl ⟨w, hi, by simp [hh]⟩
    | cons e rest =>
      cases hg : goesFirst e with
      | true => exact .inr (.inl ⟨e.action, rest, e, hh, rfl, .inr hg⟩)
      | false =>
        refine .inl ⟨w, hi, fun e' rest' h => ?_⟩
        rw [hh] at h
        cases h
        exact hg

theorem step_engine {s : State} {w : Word} (h : EngineMoves s w) : step s = engineStep s w := by
  obtain ⟨hi, hf⟩ := h
  unfold step agentsStep
  simp only [hi]
  cases hh : s.host with
  | nil => rfl
  | cons e rest => simp [hf e rest hh]

theorem step_host {s : State} {a : HostAction} {rest : List HostEvent} (h : HostMoves s a rest) :
    step s = hostStep (s.setHost rest) a := by
  obtain ⟨e, hh, rfl, hi⟩ := h
  unfold step agentsStep hostTurn
  cases hs : s.inflight with
  | none => simp [hh]
  | some w =>
    obtain hi | hi := hi
    · simp [hs] at hi
    · simp [hh, hi]

theorem step_idle {s : State} (hi : s.inflight = none) (hh : s.host = []) : step s = .next s := by
  unfold step agentsStep hostTurn
  simp [hi, hh]

/-- A write that lands on a register of the window, in its four kinds; it never refuses. -/
inductive WriteEffect (s : State) : State → Prop where
  | ignored : WriteEffect s (s.respond .accepted)
  | issued (w : Word) (h : s.fault = false) : WriteEffect s ((s.accept w).respond .accepted)
  | limb (i : RegIx) (j : Fin 5) (c : LimbCell) : WriteEffect s ((s.writeCell i j c).respond .accepted)
  | tag (i : RegIx) (t : Word) (h : s.allWritten i = true) : WriteEffect s ((tagWrite s i t).respond .accepted)

/-- Everything a write to a register can do. -/
theorem writeTarget_cases (s : State) (v : BitVec 64) (r : Target) :
    (∃ t, writeTarget s v r = .next t ∧ WriteEffect s t) ∨
      (∃ i, r = .tag i ∧ s.allWritten i = false ∧ writeTarget s v r = .fault (.unwrittenLimbs i)) := by
  cases r with
  | id => exact .inl ⟨_, rfl, .ignored⟩
  | version => exact .inl ⟨_, rfl, .ignored⟩
  | param => exact .inl ⟨_, rfl, .ignored⟩
  | status => exact .inl ⟨_, rfl, .ignored⟩
  | faultCmd => exact .inl ⟨_, rfl, .ignored⟩
  | cmd =>
    refine .inl ⟨_, rfl, ?_⟩
    unfold cmdWrite
    cases hf : s.fault
    · exact .issued _ hf
    · exact .ignored
  | limb i j part =>
    refine .inl ⟨_, rfl, ?_⟩
    cases part <;> exact .limb i j _
  | tag i =>
    cases ha : s.allWritten i
    · exact .inr ⟨i, rfl, ha, by simp [writeTarget, ha]⟩
    · exact .inl ⟨(tagWrite s i (loHalf v)).respond .accepted, by simp only [writeTarget, ha, if_true], .tag i _ ha⟩

/-- Everything an event at the port can do. -/
theorem hostStep_cases (s : State) (a : HostAction) :
    (a = .reset ∧ hostStep s a = .next s.platformReset) ∨
      (∃ r, hostStep s a = .next (s.respond r)) ∨
      (∃ off width v r, a = .write off width v ∧ resolve off width = some r ∧ hostStep s a = writeTarget s v r) := by
  cases a with
  | reset => exact .inl ⟨rfl, rfl⟩
  | read off width =>
    refine .inr (.inl ?_)
    cases hr : resolve off width with
    | none => exact ⟨.busError, by simp [hostStep, hr]⟩
    | some r => exact ⟨.data (readTarget s r), by simp only [hostStep, hr]⟩
  | write off width v =>
    cases hr : resolve off width with
    | none => exact .inr (.inl ⟨.busError, by simp [hostStep, hr]⟩)
    | some r => exact .inr (.inr ⟨off, width, v, r, rfl, hr, by simp [hostStep, hr]⟩)

/-- Everything a TAG write with written limbs can do: the requested tag, or a cleared tag and TAG_INVALID. -/
theorem tagWrite_cases (s : State) (i : RegIx) (t : Word) :
    (TagCheck (s.limbs i) t ∧ tagWrite s i t = s.setTag i (tagMag t) (tagNorm t)) ∨
      (¬ TagCheck (s.limbs i) t ∧ tagWrite s i t = (s.clearTag i).raiseFault .tagInvalid i t) := by
  unfold tagWrite
  by_cases h : TagCheck (s.limbs i) t
  · exact .inl ⟨h, if_pos h⟩
  · exact .inr ⟨h, if_neg h⟩

end Sys2Proof.Machine
end

