-- ==== Sys2Proof/Laws/Encoding.lean ====
section
/-!
SUPPORT. The fields of an assembled word are the fields it was assembled from (spec/30_encoding.md R80).
-/

namespace Sys2Proof

variable (op : BitVec 4) (rd rs1 rs2 : RegIx)

/-- Bit `k` of an assembled word, field by field. -/
theorem getLsbD_assemble (k : Nat) :
    (assemble op rd rs1 rs2).getLsbD k =
      if k < 4 then op.getLsbD k else if k < 8 then rd.getLsbD (k - 4) else if k < 12 then rs1.getLsbD (k - 8)
      else if k < 16 then rs2.getLsbD (k - 12) else false := by
  have hop : ∀ x : BitVec 4, ∀ n, ¬ n < 4 → x.getLsbD n = false := fun x n h => BitVec.getLsbD_of_ge x n (by omega)
  simp only [assemble, BitVec.getLsbD_or, BitVec.getLsbD_shiftLeft, BitVec.getLsbD_setWidth]
  by_cases h4 : k < 4
  · have a : k < 32 := by omega
    have b : k < 8 := by omega
    have c : k < 12 := by omega
    simp [h4, a, b, c]
  · by_cases h8 : k < 8
    · have a : k < 32 := by omega
      have b : k - 4 < 32 := by omega
      have c : k < 12 := by omega
      simp [h4, h8, a, b, c, hop op k h4]
    · by_cases h12 : k < 12
      · have a : k < 32 := by omega
        have b : k - 8 < 32 := by omega
        simp [h4, h8, h12, a, b, hop op k h4, hop rd (k - 4) (by omega)]
      · by_cases h16 : k < 16
        · have a : k < 32 := by omega
          have b : k - 12 < 32 := by omega
          simp [h4, h8, h12, h16, a, b, hop op k h4, hop rd (k - 4) (by omega), hop rs1 (k - 8) (by omega)]
        · simp [h4, h8, h12, h16, hop op k h4, hop rd (k - 4) (by omega), hop rs1 (k - 8) (by omega),
            hop rs2 (k - 12) (by omega)]

@[simp] theorem opField_assemble : opField (assemble op rd rs1 rs2) = op := by
  apply BitVec.eq_of_getLsbD_eq
  intro k hk
  rw [opField, BitVec.getLsbD_extractLsb', getLsbD_assemble]
  have h : 0 + k < 4 := by omega
  simp [hk]

@[simp] theorem rdField_assemble : rdField (assemble op rd rs1 rs2) = rd := by
  apply BitVec.eq_of_getLsbD_eq
  intro k hk
  rw [rdField, BitVec.getLsbD_extractLsb', getLsbD_assemble, if_neg (by omega), if_pos (by omega)]
  simp [hk]

@[simp] theorem rs1Field_assemble : rs1Field (assemble op rd rs1 rs2) = rs1 := by
  apply BitVec.eq_of_getLsbD_eq
  intro k hk
  rw [rs1Field, BitVec.getLsbD_extractLsb', getLsbD_assemble, if_neg (by omega), if_neg (by omega), if_pos (by omega)]
  simp [hk]

@[simp] theorem rs2Field_assemble : rs2Field (assemble op rd rs1 rs2) = rs2 := by
  apply BitVec.eq_of_getLsbD_eq
  intro k hk
  rw [rs2Field, BitVec.getLsbD_extractLsb', getLsbD_assemble, if_neg (by omega), if_neg (by omega),
    if_neg (by omega), if_pos (by omega)]
  simp [hk]

@[simp] theorem rsvField_assemble : rsvField (assemble op rd rs1 rs2) = 0#16 := by
  apply BitVec.eq_of_getLsbD_eq
  intro k hk
  rw [rsvField, BitVec.getLsbD_extractLsb', getLsbD_assemble, if_neg (by omega), if_neg (by omega),
    if_neg (by omega), if_neg (by omega)]
  simp

/-- `legal` in terms of the decoder's fields. -/
theorem legal_eq (w : Word) :
    legal w = (rsvField w == 0#16 && (opField w == 0x1#4 || opField w == 0x2#4 ||
      ((opField w == 0x3#4 || opField w == 0x4#4) && rs2Field w == 0x0#4))) := rfl

end Sys2Proof
end

