-- ==== Sys2Proof/Laws/Limbs.lean ====
section
/-!
SUPPORT. The arithmetic of limb vectors in terms of Nat: cutting a value in limbs (spec/00_scope.md R14), the fold
(R19), and the carry pass of the normalizer (spec/41_normalizer.md R122).
-/

namespace Sys2Proof.Machine

/-! ### Cutting in limbs -/

theorem toNat_ofNat_limb {v : Nat} (h : v < 2 ^ 64) : (BitVec.ofNat 64 v).toNat = v := by
  simp only [BitVec.toNat_ofNat]; omega

/-- limbs(v) has limbs 0 to 3 below 2^52 and limb 4 below 2^48, whatever v. -/
theorem limbsOf_range (v : Nat) :
    (limbsOf v).n0.toNat < 2 ^ 52 ∧ (limbsOf v).n1.toNat < 2 ^ 52 ∧ (limbsOf v).n2.toNat < 2 ^ 52 ∧
      (limbsOf v).n3.toNat < 2 ^ 52 ∧ (limbsOf v).n4.toNat < 2 ^ 48 := by
  simp only [limbsOf, BitVec.toNat_ofNat]; omega

/-- val(limbs(v)) = v for v < 2^256. -/
theorem valueOf_limbsOf {v : Nat} (h : v < 2 ^ 256) : valueOf (limbsOf v) = v := by
  simp only [valueOf, limbsOf, BitVec.toNat_ofNat]; omega

/-- Limb vectors in range are determined by their value. -/
theorem limbs_eq_of_valueOf {a b : Limbs}
    (ha : a.n0.toNat < 2 ^ 52 ∧ a.n1.toNat < 2 ^ 52 ∧ a.n2.toNat < 2 ^ 52 ∧ a.n3.toNat < 2 ^ 52)
    (hb : b.n0.toNat < 2 ^ 52 ∧ b.n1.toNat < 2 ^ 52 ∧ b.n2.toNat < 2 ^ 52 ∧ b.n3.toNat < 2 ^ 52)
    (h : valueOf a = valueOf b) : a = b := by
  cases a; cases b
  simp only [valueOf] at h ha hb
  simp only [Limbs.mk.injEq]
  refine ⟨?_, ?_, ?_, ?_, ?_⟩ <;> apply BitVec.eq_of_toNat_eq <;> omega

/-! ### The fold -/

theorem r_eq : Config.r = 2 ^ 32 + 977 := rfl

theorem p_add_r : Config.p + Config.r = 2 ^ 256 := rfl

/-- F keeps the residue mod p (R19). -/
theorem fold_mod_p (x : Nat) : fold x % Config.p = x % Config.p := by
  have h : x = fold x + x / 2 ^ 256 * Config.p := by unfold fold Config.r Config.p; omega
  conv => rhs; rw [h]
  simp

theorem foldWhile_mod_p (k x : Nat) : foldWhile k x % Config.p = x % Config.p := by
  induction k generalizing x with
  | zero => rfl
  | succ k ih =>
    unfold foldWhile
    split
    · rw [ih, fold_mod_p]
    · rfl

/-- F is the identity below 2^256. -/
theorem fold_of_lt {x : Nat} (h : x < 2 ^ 256) : fold x = x := by unfold fold Config.r; omega

/-! ### The carry pass -/

theorem toNat_mask52 (a : Limb) : (a &&& mask52).toNat = a.toNat % 2 ^ 52 := by
  have : mask52.toNat = 2 ^ 52 - 1 := rfl
  rw [BitVec.toNat_and, this, Nat.and_two_pow_sub_one_eq_mod]

theorem toNat_mask48 (a : Limb) : (a &&& mask48).toNat = a.toNat % 2 ^ 48 := by
  have : mask48.toNat = 2 ^ 48 - 1 := rfl
  rw [BitVec.toNat_and, this, Nat.and_two_pow_sub_one_eq_mod]

theorem toNat_shiftRight (a : Limb) (k : Nat) : (a >>> k).toNat = a.toNat / 2 ^ k := by
  rw [BitVec.toNat_ushiftRight, Nat.shiftRight_eq_div_pow]

/-- Adding a carry out of 52 bits does not wrap while the limb leaves room for it. -/
theorem toNat_add_carry (a b : Limb) (h : a.toNat < 2 ^ 64 - 2 ^ 12) :
    (a + b >>> 52).toNat = a.toNat + b.toNat / 2 ^ 52 := by
  have := b.isLt
  rw [BitVec.toNat_add, toNat_shiftRight]; omega

/-- The carry pass keeps the value, brings limbs 0 to 3 below 2^52 and adds less than 2^12 to limb 4. -/
theorem carryPass_spec {n : Limbs} (h1 : n.n1.toNat < 2 ^ 64 - 2 ^ 12) (h2 : n.n2.toNat < 2 ^ 64 - 2 ^ 12)
    (h3 : n.n3.toNat < 2 ^ 64 - 2 ^ 12) (h4 : n.n4.toNat < 2 ^ 64 - 2 ^ 12) :
    valueOf (carryPass n) = valueOf n ∧ (carryPass n).n0.toNat < 2 ^ 52 ∧ (carryPass n).n1.toNat < 2 ^ 52 ∧
      (carryPass n).n2.toNat < 2 ^ 52 ∧ (carryPass n).n3.toNat < 2 ^ 52 ∧
      (carryPass n).n4.toNat < n.n4.toNat + 2 ^ 12 := by
  have e1 := toNat_add_carry n.n1 n.n0 h1
  have e2 := toNat_add_carry n.n2 (n.n1 + n.n0 >>> 52) h2
  have e3 := toNat_add_carry n.n3 (n.n2 + (n.n1 + n.n0 >>> 52) >>> 52) h3
  have e4 := toNat_add_carry n.n4 (n.n3 + (n.n2 + (n.n1 + n.n0 >>> 52) >>> 52) >>> 52) h4
  have b3 := (n.n3 + (n.n2 + (n.n1 + n.n0 >>> 52) >>> 52) >>> 52).isLt
  simp only [carryPass, valueOf, toNat_mask52]
  generalize hx1 : n.n1 + n.n0 >>> 52 = x1 at *
  generalize hx2 : n.n2 + x1 >>> 52 = x2 at *
  generalize hx3 : n.n3 + x2 >>> 52 = x3 at *
  rw [e4]
  omega

end Sys2Proof.Machine
end

