-- ==== Sys2Proof/Laws/PerInstr.lean ====
section
/-!
SUPPORT. The per-instruction family EncodesLegal: the word a command is written as is a legal one
(spec/30_encoding.md R80, R84).
-/

namespace Sys2Proof.Laws.EncodesLegal

/-- The command's word is legal by R84 and has its own opcode by R83. -/
def Statement (i : Instr) : Prop := legal (encode i) = true ∧ opField (encode i) = opcodeOf i

theorem fadd (rd rs1 rs2 : RegIx) : Statement (.fadd rd rs1 rs2) := by
  simp [Statement, encode, legal_eq, opcodeOf]

theorem fmul (rd rs1 rs2 : RegIx) : Statement (.fmul rd rs1 rs2) := by
  simp [Statement, encode, legal_eq, opcodeOf]

theorem fsqr (rd rs1 : RegIx) : Statement (.fsqr rd rs1) := by
  simp [Statement, encode, legal_eq, opcodeOf]

theorem fnorm (rd rs1 : RegIx) : Statement (.fnorm rd rs1) := by
  simp [Statement, encode, legal_eq, opcodeOf]

end Sys2Proof.Laws.EncodesLegal
end

