-- ==== Sys2Proof/Machine/Assembly.lean ====
section
/-!
DEFINITION. The assembler's view of commands: their text and the pseudo-instructions (spec/30_encoding.md R87, R88).
-/

namespace Sys2Proof.Machine

/-- `f0` to `f15` (R87). -/
def regText (i : RegIx) : String := "f" ++ toString i.toNat

/-- A command as it is written, destination first; FSQR and FNORM with two operands (R87). -/
def asmText : Instr → String
  | .fadd rd rs1 rs2 => "FADD " ++ regText rd ++ ", " ++ regText rs1 ++ ", " ++ regText rs2
  | .fmul rd rs1 rs2 => "FMUL " ++ regText rd ++ ", " ++ regText rs1 ++ ", " ++ regText rs2
  | .fsqr rd rs1 => "FSQR " ++ regText rd ++ ", " ++ regText rs1
  | .fnorm rd rs1 => "FNORM " ++ regText rd ++ ", " ++ regText rs1

/-- `ADD fr, fa` is `FADD fr, fr, fa` (R88). -/
def pseudoAdd (fr fa : RegIx) : Instr := .fadd fr fr fa

/-- `NORMALIZE fr` is `FNORM fr, fr` (R88). -/
def pseudoNormalize (fr : RegIx) : Instr := .fnorm fr fr

/-- `SQRI fr` is `FSQR fr, fr` (R88). -/
def pseudoSqri (fr : RegIx) : Instr := .fsqr fr fr

/-- `DBL fr, fa` is `FADD fr, fa, fa` (R88). -/
def pseudoDbl (fr fa : RegIx) : Instr := .fadd fr fa fa

/-- `MULI fr, fa` is `FMUL fr, fr, fa` (R88). -/
def pseudoMuli (fr fa : RegIx) : Instr := .fmul fr fr fa

end Sys2Proof.Machine
end

