-- ==== Sys2Proof/Tests/Slice0.lean ====
section
/-!
SUPPORT. The model's own tests: the smoke test of the word checks, the spec's worked encodings, vectors of
spec/95_test_vectors.md (named in each comment), and a witness for the hypotheses of every statement.
-/

namespace Sys2Proof.Tests

open Sys2Proof.Machine

/-! ### Helpers -/

/-- A check on the next state; false where the result is a fault or a refusal. -/
def nextIs (r : Result) (check : State → Bool) : Bool :=
  match r with
  | .next t => check t
  | .fault _ => false
  | .refused _ => false

/-- (v, 0, 0, 0, 0). -/
def small (v : Nat) : Limbs := { n0 := BitVec.ofNat 64 v, n1 := 0#64, n2 := 0#64, n3 := 0#64, n4 := 0#64 }

/-- The limbs of p with `n0` in place of p_lo52. -/
def nearP (n0 : Limb) : Limbs :=
  { n0 := n0, n1 := 0xFFFFFFFFFFFFF#64, n2 := 0xFFFFFFFFFFFFF#64, n3 := 0xFFFFFFFFFFFFF#64, n4 := 0xFFFFFFFFFFFF#64 }

/-- bound(m) as a limb vector. -/
def boundVec (m : Nat) : Limbs :=
  { n0 := BitVec.ofNat 64 (lowBound m), n1 := BitVec.ofNat 64 (lowBound m), n2 := BitVec.ofNat 64 (lowBound m),
    n3 := BitVec.ofNat 64 (lowBound m), n4 := BitVec.ofNat 64 (topBound m) }

/-- x and y of spec/95_test_vectors.md 2.4. -/
def vecX : Limbs := ⟨0x6554433221100#64, 0xCCBBAA9988776#64, 0x6543210FFEEDD#64, 0xDEF0FEDCBA987#64, 0x123456789ABC#64⟩

def vecY : Limbs := ⟨0x456789ABCDEF0#64, 0xFF00000000123#64, 0x1111111FFFFFF#64, 0xCAFEBABE1#64, 0xDEADBEEF0000#64⟩

/-- f0 and f1 loaded. -/
def twoRegs (x : Limbs) (mx : BitVec 6) (y : Limbs) (my : BitVec 6) : State :=
  (State.reset.writeFe 0#4 x mx false).writeFe 1#4 y my false

/-- One command word, accepted and completed. -/
def run1 (s : State) (w : Word) : Result := step (s.accept w)

/-- One event of the host at an idle block. -/
def host1 (s : State) (a : HostAction) : Result := step { s with host := [{ arrival := .afterCompletion, action := a }] }

/-- STATUS of a state. -/
def status (s : State) : Word := statusWord s.busy s.fault s.cause s.freg

/-- The register `i` holds these limbs with this tag, and is valid. -/
def holds (t : State) (i : RegIx) (n : Limbs) (mag : BitVec 6) (norm : Bool) : Bool :=
  t.limbs i == n && t.mag i == mag && t.norm i == norm && t.valid i

/-! ### The checks on words (R84, R85; 95_test_vectors.md 2.5) -/

theorem test_illegal_reserved_bits : legal 0x00010001#32 = false ∧ legal 0x80002132#32 = false ∧
    decode 0x00010001#32 = .illegal .reservedBits ∧ decode 0x80002132#32 = .illegal .reservedBits := by decide

theorem test_illegal_opcodes : legal 0x00000000#32 = false ∧ legal 0x00000005#32 = false ∧ legal 0x0000000F#32 = false ∧
    decode 0x00000000#32 = .illegal (.opcode 0x0#4) ∧ decode 0x0000000F#32 = .illegal (.opcode 0xF#4) := by decide

theorem test_illegal_rs2 : legal 0x00001003#32 = false ∧ legal 0x00001004#32 = false ∧
    decode 0x00001003#32 = .illegal .rs2NotZero ∧ decode 0x00001004#32 = .illegal .rs2NotZero := by decide

/-- A word with none of the faults is legal, and every command is a well-formed term (R81, R82). -/
theorem test_legal_words : legal 0x00001021#32 = true ∧ legal 0x000003F4#32 = true ∧
    Instr.wellFormed (.fmul 15#4 15#4 15#4) = true := by decide

/-! ### Encodings written out bit by bit from R80: RSV | RS2 | RS1 | RD | OP -/

theorem test_decode_fadd : decode 0b0000000000000000_0001_0000_0010_0001#32 = .command (.fadd 2#4 0#4 1#4) := by decide

theorem test_decode_fmul : decode 0b0000000000000000_0010_0001_0011_0010#32 = .command (.fmul 3#4 1#4 2#4) := by decide

theorem test_decode_fsqr : decode 0b0000000000000000_0000_1001_0110_0011#32 = .command (.fsqr 6#4 9#4) := by decide

theorem test_decode_fnorm : decode 0b0000000000000000_0000_0011_1111_0100#32 = .command (.fnorm 15#4 3#4) := by decide

theorem test_encode_words : encode (.fadd 2#4 0#4 1#4) = 0x00001021#32 ∧ encode (.fsqr 0#4 0#4) = 0x00000003#32 ∧
    encode (.fmul 15#4 15#4 15#4) = 0x0000FFF2#32 ∧ encode (.fnorm 1#4 1#4) = 0x00000114#32 := by decide

theorem test_table_word : decodeTableWord 32 0x000003F4 = some (.fnorm 15#4 3#4) ∧ decodeTableWord 32 0 = none := by
  decide

/-- R87, R88: the text of a command and the expansions of two pseudo-instructions. -/
theorem test_assembler : asmText (.fnorm 15#4 3#4) = "FNORM f15, f3" ∧ encode (pseudoDbl 1#4 0#4) = 0x00000011#32 ∧
    encode (pseudoMuli 0#4 1#4) = 0x00001002#32 := by decide

/-! ### Commands, one step each -/

/-- A4: the sum at MAG_MAX is accepted and gives bound(32). -/
theorem test_fadd_at_limit :
    nextIs (run1 (twoRegs (boundVec 16) 16#6 (boundVec 16) 16#6) 0x00001021#32)
      (fun t => holds t 2#4 (boundVec 32) 32#6 false && status t == 0#32) = true := by decide

/-- A5: MAG 16 + 17 faults with ADD_MAGNITUDE tied to RD, and writes nothing. -/
theorem test_fadd_faults :
    nextIs (run1 (twoRegs (small 1) 16#6 (small 2) 17#6) 0x00001021#32)
      (fun t => status t == 0x00000242#32 && t.faultCmd == 0x00001021#32 && !t.valid 2#4) = true := by decide

/-- M3: x·y. -/
theorem test_fmul_xy :
    nextIs (run1 (twoRegs vecX 1#6 vecY 1#6) 0x00001022#32)
      (fun t => holds t 2#4 ⟨0xBDB43DECA7721#64, 0x774A232D293E0#64, 0x81B3D8797A071#64, 0x74153BABD4830#64,
        0x7DEB16C6B086#64⟩ 1#6 false) = true := by decide +kernel

/-- M7: with RS1 of MAG 9 and RS2 invalid, UNINIT_SRC on RS2 is reported. -/
theorem test_fmul_priority :
    nextIs (run1 (State.reset.writeFe 0#4 (small 1) 9#6 false) 0x00001022#32)
      (fun t => status t == 0x00000122#32 && t.faultCmd == 0x00001022#32) = true := by decide

/-- S3: y² in place. -/
theorem test_fsqr_in_place :
    nextIs (run1 (twoRegs vecX 1#6 vecY 1#6) 0x00000113#32)
      (fun t => holds t 1#4 ⟨0x12BF983EB274C#64, 0xD917A7FAE4685#64, 0xC7628CE7FAAA9#64, 0x8873AC9DCB5D#64,
        0x2BAE7A30F5DB#64⟩ 1#6 false) = true := by decide +kernel

/-- S5: MAG 9 faults with MUL_MAGNITUDE. -/
theorem test_fsqr_faults :
    nextIs (run1 (twoRegs (small 1) 9#6 (small 2) 1#6) 0x00000013#32)
      (fun t => status t == 0x00000032#32 && t.faultCmd == 0x00000013#32 && !t.busy) = true := by decide

/-- N6: the largest vector a register can hold. -/
theorem test_fnorm_bound32 :
    nextIs (run1 (twoRegs (boundVec 32) 32#6 (small 2) 1#6) 0x00000014#32)
      (fun t => holds t 1#4 ⟨0x400000F420#64, 0x20#64, 0x20#64, 0x20#64, 0x20#64⟩ 1#6 true) = true := by decide

/-- N10: an invalid source. -/
theorem test_fnorm_uninit :
    nextIs (run1 State.reset 0x00000014#32)
      (fun t => status t == 0x00000022#32 && t.faultCmd == 0x00000014#32) = true := by decide

/-! ### N and REDUCE by themselves -/

/-- N1, N2, N3, N4, N5, N8. -/
theorem test_normalize :
    normalizeLimbs (nearP Config.pLo52) = small 0 ∧ normalizeLimbs (nearP 0xFFFFEFFFFFC30#64) = small 1 ∧
    normalizeLimbs (nearP 0xFFFFFFFFFFFFF#64) = small 0x1000003D0 ∧
    normalizeLimbs ⟨0#64, 0#64, 0#64, 0#64, 0x1000000000000#64⟩ = small 0x1000003D1 ∧
    normalizeLimbs (boundVec 1) = ⟨0x2000007A1#64, 1#64, 1#64, 1#64, 1#64⟩ ∧
    normalizeLimbs (nearP 0xFFFFEFFFFFC2E#64) = nearP 0xFFFFEFFFFFC2E#64 := by decide

/-- Rows R2, R3, R6 and R7 of 95_test_vectors.md 2.3: no fold, one, and twice two. -/
theorem test_reduce :
    reduce (cols (small 1) (nearP Config.pLo52)) = nearP Config.pLo52 ∧
    reduce (cols ⟨0#64, 0#64, 0x1000000#64, 0#64, 0#64⟩ ⟨0#64, 0#64, 0x1000000#64, 0#64, 0#64⟩) = small 0x1000003D1 ∧
    reduce (sqcols (nearP 0xFFFFEFFFFFC2E#64)) = nearP 0xFFFFEFFFFFC30#64 ∧
    reduce (cols (boundVec 8) (boundVec 8)) =
      ⟨0x7B1000EC9E040#64, 0xD0000419C80#64, 0x900002258C0#64, 0x50000131500#64, 0x1000003D140#64⟩ := by
  decide +kernel

/-- Rows R4 and R5 of 95_test_vectors.md 2.3: two and three folds. -/
theorem test_folds :
    foldWhile 3 (2 ^ 257 - 1) = 0x2000007A1 ∧
    foldWhile 3 (0xFFFFFFFFFFFFFFFFFFFFFFFFFFFFFFFFFFFFFFFFFFFFFFFFFFFFFFFF05625499 +
      0xFFFFFC2F000E90A0C86A0A63234E5BA641F43A7E4AECC4040E67EC86 * 2 ^ 256) = 0x2000007A1 ∧
    foldWhile 2 (0xFFFFFFFFFFFFFFFFFFFFFFFFFFFFFFFFFFFFFFFFFFFFFFFFFFFFFFFF05625499 +
      0xFFFFFC2F000E90A0C86A0A63234E5BA641F43A7E4AECC4040E67EC86 * 2 ^ 256) ≠ 0x2000007A1 := by decide +kernel

/-- R12: the constants r and K260. -/
theorem test_constants : 2 ^ 256 % Config.p = Config.r ∧ 2 ^ 260 % Config.p = Config.k260 ∧
    Config.k260 = 16 * Config.r ∧ valueOf (nearP Config.pLo52) = Config.p := by decide +kernel

/-! ### The window (95_test_vectors.md 2.6) -/

/-- B1, B2, B3. -/
theorem test_reads_after_reset :
    nextIs (host1 State.reset (.read 0x000#12 32)) (fun t => t.responses == [.data 0x53324B31#64]) = true ∧
    nextIs (host1 State.reset (.read 0x008#12 32)) (fun t => t.responses == [.data 0x00082010#64]) = true ∧
    nextIs (host1 State.reset (.read 0x014#12 32)) (fun t => t.responses == [.data 0#64]) = true ∧
    nextIs (host1 State.reset (.read 0x128#12 32)) (fun t => t.responses == [.data 0#64]) = true := by decide

/-- B4, B5, B6. -/
theorem test_bus_errors :
    nextIs (host1 State.reset (.read 0x000#12 64)) (fun t => t.responses == [.busError]) = true ∧
    nextIs (host1 State.reset (.read 0x00C#12 32)) (fun t => t.responses == [.busError]) = true ∧
    nextIs (host1 State.reset (.read 0x12C#12 32)) (fun t => t.responses == [.busError]) = true ∧
    nextIs (host1 State.reset (.write 0x500#12 32 0#64)) (fun t => t.responses == [.busError]) = true ∧
    nextIs (host1 State.reset (.read 0x102#12 32)) (fun t => t.responses == [.busError]) = true := by decide

/-- B7 and R57: the halves of a limb, and its bytes. -/
theorem test_lanes :
    let t := limbWrite State.reset 0#4 0 0x0123456789ABCDEF#64 .whole
    readTarget t (.limb 0#4 0 .lo) = 0x89ABCDEF#64 ∧ readTarget t (.limb 0#4 0 .hi) = 0x01234567#64 ∧
    windowByte t 0x100#12 = some 0xEF#8 ∧ windowByte t 0x107#12 = some 0x01#8 := by decide

/-- B8, B9, B14. -/
theorem test_writes :
    nextIs (host1 State.reset (.write 0x014#12 32 0xFFFFFFFF#64)) (fun t => status t == 0#32) = true ∧
    nextIs (host1 (twoRegs vecX 1#6 vecY 1#6) (.write 0x108#12 64 7#64)) (fun t => !t.valid 0#4 && t.valid 1#4) = true ∧
    nextIs (host1 (State.reset.raiseFault .illegalCmd 0#4 0#32) (.write 0x010#12 32 0x1021#64))
      (fun t => !t.busy && t.inflight.isNone && status t == 0x12#32) = true := by decide

/-- B10, B11 and B12 on limbs(p). -/
theorem test_tag_checks :
    nextIs (host1 (twoRegs (nearP Config.pLo52) 1#6 vecY 1#6) (.write 0x128#12 32 0x101#64))
      (fun t => status t == 0x00000052#32 && t.faultCmd == 0x101#32 && !t.valid 0#4) = true ∧
    nextIs (host1 (twoRegs (nearP Config.pLo52) 1#6 vecY 1#6) (.write 0x128#12 32 0x001#64))
      (fun t => status t == 0#32 && readTarget t (.tag 0#4) == 0x00010001#64) = true ∧
    nextIs (host1 (twoRegs vecX 1#6 vecY 1#6) (.write 0x128#12 32 0x021#64))
      (fun t => status t == 0x00000052#32) = true := by decide +kernel

/-- R62, V3: a TAG write of a register with unwritten limbs is the model fault. -/
theorem test_unwritten_tag :
    (match host1 State.reset (.write 0x1E8#12 32 1#64) with
      | .fault f => f == .unwrittenLimbs 3#4
      | .next _ => false
      | .refused _ => false) = true := by decide

/-- S4 of 95_test_vectors.md 1.2: negate(1, 1) is 4p − 1 in limbs, with MAG 2. -/
theorem test_negate_one :
    ((setInt 1).bind (fun x => negate x 1)) = some
      { n := ⟨0x3FFFFBFFFFF0BB#64, 0x3FFFFFFFFFFFFC#64, 0x3FFFFFFFFFFFFC#64, 0x3FFFFFFFFFFFFC#64, 0x3FFFFFFFFFFFC#64⟩,
        mag := 2, norm := false } := by decide

/-- The host's question (decode and run as the first command after reset) on a row's word. -/
theorem test_placed_word_runs :
    nextIs (step (State.reset.withFetchWord 32 0x00000001))
      (fun t => status t == 0x00000022#32 && t.faultCmd == 0x00000001#32) = true := by decide

end Sys2Proof.Tests
end

