-- ==== Sys2Proof/Tests/Witnesses.lean ====
section
/-!
SUPPORT. For every statement with hypotheses, a concrete state and operands that meet all of them together, clause by
clause; so no statement is empty. Boundary values are used where a clause has a range.
-/

namespace Sys2Proof.Tests

open Sys2Proof.Machine

/-! ### Helpers -/

/-- A state with one event to come. -/
def withEvent (s : State) (a : HostAction) : State :=
  { s with host := [{ arrival := .whileBusy, action := a }] }

theorem engineMoves_accept (s : State) (w : Word) (h : s.host = []) : EngineMoves (s.accept w) w :=
  ⟨rfl, by simp [h]⟩

theorem hostMoves_withEvent (s : State) (a : HostAction) (h : s.inflight = none) : HostMoves (withEvent s a) a [] :=
  ⟨_, rfl, rfl, .inl h⟩

/-- f0 = bound(8) with MAG 8, f1 = y with MAG 1, the rest invalid. -/
def loaded : State := twoRegs (boundVec 8) 8#6 vecY 1#6

/-- f0 and f1 at MAG 16: the largest sum FADD accepts. -/
def loaded16 : State := twoRegs (boundVec 16) 16#6 (boundVec 16) 16#6

/-- The same tags as `loaded` over other limbs. -/
def loadedOther : State := twoRegs vecX 8#6 (small 5) 1#6

/-- `loaded` with a fault recorded. -/
def faulted : State := loaded.raiseFault .illegalCmd 0#4 0#32

/-- The tag invariant as a Boolean, to be evaluated. -/
def tagInvHolds (s : State) (i : RegIx) : Bool :=
  decide (s.valid i = true →
    s.allWritten i = true ∧ 1 ≤ (s.mag i).toNat ∧ (s.mag i).toNat ≤ Config.magMax ∧
      HasMagnitude (s.mag i).toNat (s.limbs i) ∧
      (s.norm i = true → (s.mag i).toNat = 1 ∧ Canonical (s.limbs i))) &&
  decide (s.valid i = false → s.mag i = 0#6 ∧ s.norm i = false)

theorem tagInv_of_holds {s : State} {i : RegIx} (h : tagInvHolds s i = true) : TagInv s i := by
  rw [tagInvHolds, Bool.and_eq_true, decide_eq_true_eq, decide_eq_true_eq] at h
  exact h

theorem next_of_nextIs {r : Result} {c : State → Bool} (h : nextIs r c = true) : ∃ t, r = .next t ∧ c t = true := by
  cases r with
  | next t => exact ⟨t, rfl, h⟩
  | fault f => cases h
  | refused r => cases h

theorem step_run1 {s : State} {w : Word} (h : nextIs (run1 s w) (fun _ => true) = true) :
    ∃ t, step (s.accept w) = .next t := by
  obtain ⟨t, ht, _⟩ := next_of_nextIs h
  exact ⟨t, ht⟩

/-! ### Encoding and the step -/

theorem witness_EncodeDecodeRoundTrip : decode 0x0000FFF2#32 = .command (.fmul 15#4 15#4 15#4) := by decide

/-- A word of each kind of illegality, in flight with the engine to move, with and without a fault recorded. -/
theorem witness_LegalWordsAreTheCommands :
    (∀ i, decode 0x00000000#32 ≠ .command i) ∧ (∀ i, decode 0x00001003#32 ≠ .command i) ∧
    (∀ i, decode 0x00010001#32 ≠ .command i) ∧ EngineMoves (loaded.accept 0x00000000#32) 0x00000000#32 ∧
    EngineMoves (faulted.accept 0x00000000#32) 0x00000000#32 ∧ loaded.fault = false ∧ faulted.fault = true := by
  have h0 : decode 0x00000000#32 = .illegal (.opcode 0x0#4) := by decide
  have h1 : decode 0x00001003#32 = .illegal .rs2NotZero := by decide
  have h2 : decode 0x00010001#32 = .illegal .reservedBits := by decide
  exact ⟨by simp [h0], by simp [h1], by simp [h2], engineMoves_accept _ _ rfl, engineMoves_accept _ _ rfl,
    by decide, by decide⟩

theorem witness_StepRunsTheDecodedCommand :
    EngineMoves (loaded.accept 0x00001021#32) 0x00001021#32 ∧ decode 0x00001021#32 = .command (.fadd 2#4 0#4 1#4) :=
  ⟨engineMoves_accept _ _ rfl, by decide⟩

theorem witness_PlacedWordRunsNext : decode 0x000003F4#32 = .command (.fnorm 15#4 3#4) := by decide

theorem witness_IdleBlockWaits : loaded.inflight = none ∧ loaded.host = [] := by decide

/-- A CMD write without and with a fault recorded, and a word in flight. -/
theorem witness_CmdWriteIssuesAndCompletes :
    (HostMoves (withEvent loaded (.write 0x010#12 32 0x1021#64)) (.write 0x010#12 32 0x1021#64) [] ∧
      (withEvent loaded (.write 0x010#12 32 0x1021#64)).fault = false) ∧
    (HostMoves (withEvent faulted (.write 0x010#12 32 0x1021#64)) (.write 0x010#12 32 0x1021#64) [] ∧
      (withEvent faulted (.write 0x010#12 32 0x1021#64)).fault = true) ∧
    EngineMoves (loaded.accept 0x00001021#32) 0x00001021#32 :=
  ⟨⟨hostMoves_withEvent _ _ (by decide), by decide⟩, ⟨hostMoves_withEvent _ _ (by decide), by decide⟩,
    engineMoves_accept _ _ rfl⟩

/-- A command in flight with a STATUS read that comes before its completion, and one that a reset abandons. -/
theorem witness_AcceptedCommandCompletes :
    (((withEvent loaded (.read 0x014#12 32)).accept 0x00001021#32).inflight = some 0x00001021#32 ∧
      nextIs (step ((withEvent loaded (.read 0x014#12 32)).accept 0x00001021#32))
        (fun t => t.inflight == some 0x00001021#32 && t.host == [] && t.responses == [.data 1#64]) = true) ∧
    (((withEvent loaded .reset).accept 0x00001021#32).inflight = some 0x00001021#32 ∧
      HostMoves ((withEvent loaded .reset).accept 0x00001021#32) .reset []) :=
  ⟨by decide, rfl, _, rfl, rfl, .inr rfl⟩

theorem witness_AcceptedCommandNeverChanges :
    (nextIs (step (withEvent loaded (.write 0x010#12 32 0x1021#64)))
      (fun t => t.inflight == some 0x00001021#32) = true ∧
      (withEvent loaded (.write 0x010#12 32 0x1021#64)).inflight = none) ∧
    (nextIs (run1 loaded 0x00001021#32) (fun t => t.inflight == none) = true ∧
      (loaded.accept 0x00001021#32).inflight = some 0x00001021#32) := by decide

theorem witness_StopsOnlyOnUnwrittenTagWrite :
    step (withEvent loaded (.write 0x1E8#12 32 1#64)) = .fault (.unwrittenLimbs 3#4) := by
  have hr : resolve 0x1E8#12 32 = some (.tag 3#4) := by decide
  rw [step_host (hostMoves_withEvent _ _ (by decide))]
  simp only [hostStep, hr, writeTarget]
  exact if_neg (by decide)

/-! ### Commands -/

theorem tagInv_loaded : TagInv loaded 0#4 ∧ TagInv loaded 1#4 :=
  ⟨tagInv_of_holds (by decide +kernel), tagInv_of_holds (by decide +kernel)⟩

theorem tagInv_loaded16 : TagInv loaded16 0#4 ∧ TagInv loaded16 1#4 :=
  ⟨tagInv_of_holds (by decide +kernel), tagInv_of_holds (by decide +kernel)⟩

/-- Also for FaddResultLaw: two valid sources at MAG 16, and the two at MAG 8 and 1. -/
theorem witness_FaddNoLimbOverflows :
    (loaded16.valid 0#4 = true ∧ loaded16.valid 1#4 = true ∧ (loaded16.mag 0#4).toNat + (loaded16.mag 1#4).toNat ≤ 32 ∧
      TagInv loaded16 0#4 ∧ TagInv loaded16 1#4) ∧
    (loaded.valid 0#4 = true ∧ loaded.valid 1#4 = true ∧ (loaded.mag 0#4).toNat + (loaded.mag 1#4).toNat ≤ 32 ∧
      TagInv loaded 0#4 ∧ TagInv loaded 1#4) :=
  ⟨⟨by decide, by decide, by decide, tagInv_loaded16.1, tagInv_loaded16.2⟩,
    ⟨by decide, by decide, by decide, tagInv_loaded.1, tagInv_loaded.2⟩⟩

theorem witness_FaddResultLaw :
    loaded16.valid 0#4 = true ∧ loaded16.valid 1#4 = true ∧ (loaded16.mag 0#4).toNat + (loaded16.mag 1#4).toNat ≤ 32 ∧
      TagInv loaded16 0#4 ∧ TagInv loaded16 1#4 :=
  witness_FaddNoLimbOverflows.1

theorem witness_ColumnsStayBelowAccumulator : HasMagnitude 8 (boundVec 8) ∧ HasMagnitude 8 vecX := by decide +kernel

/-- The columns of the worst case, the three-fold value of R144, and the largest value below 2^545. -/
theorem witness_ThreeFoldsSuffice :
    (∀ c : Columns, c = cols (boundVec 8) (boundVec 8) ∨
        c = ⟨2 ^ 128 - 1, 2 ^ 128 - 1, 2 ^ 128 - 1, 2 ^ 128 - 1, 2 ^ 128 - 1, 2 ^ 128 - 1, 2 ^ 128 - 1, 2 ^ 128 - 1,
          2 ^ 128 - 1⟩ →
      c.c0 < 2 ^ 128 ∧ c.c1 < 2 ^ 128 ∧ c.c2 < 2 ^ 128 ∧ c.c3 < 2 ^ 128 ∧ c.c4 < 2 ^ 128 ∧ c.c5 < 2 ^ 128 ∧
      c.c6 < 2 ^ 128 ∧ c.c7 < 2 ^ 128 ∧ c.c8 < 2 ^ 128) ∧
    2 ^ 256 - 1 < 2 ^ 256 ∧ 2 ^ 545 - 1 < 2 ^ 545 ∧ 2 ^ 256 ≤ fold (fold (
      0xFFFFFFFFFFFFFFFFFFFFFFFFFFFFFFFFFFFFFFFFFFFFFFFFFFFFFFFF05625499 +
      0xFFFFFC2F000E90A0C86A0A63234E5BA641F43A7E4AECC4040E67EC86 * 2 ^ 256)) := by
  refine ⟨?_, by decide +kernel⟩
  rintro c (rfl | rfl) <;> decide +kernel

/-- Valid sources at MULMAG_MAX: also for FmulMultipliesModP, FsqrSquaresModP, SquareEqualsMultiply, MultiplicationLaws,
ProductsAreThreeFolds. -/
theorem witness_ReduceOutputProperties :
    loaded.valid 0#4 = true ∧ loaded.valid 1#4 = true ∧ (loaded.mag 0#4).toNat ≤ 8 ∧ (loaded.mag 1#4).toNat ≤ 8 ∧
    (loaded.mag 0#4).toNat = 8 := by decide

theorem witness_FmulMultipliesModP :
    loaded.valid 0#4 = true ∧ loaded.valid 1#4 = true ∧ (loaded.mag 0#4).toNat ≤ 8 ∧ (loaded.mag 1#4).toNat ≤ 8 := by
  decide

theorem witness_ProductsAreThreeFolds : ∀ x, fold x = x % 2 ^ 256 + 0x1000003D1 * (x / 2 ^ 256) := fun _ => rfl

theorem witness_FsqrSquaresModP : loaded.valid 0#4 = true ∧ (loaded.mag 0#4).toNat ≤ 8 := by decide

theorem witness_SquareEqualsMultiply : loaded.valid 1#4 = true ∧ (loaded.mag 1#4).toNat ≤ 8 := by decide

theorem witness_MultiplicationLaws :
    HasMagnitude 8 (boundVec 8) ∧ HasMagnitude 7 (boundVec 7) ∧ HasMagnitude 1 vecX ∧ 7 + 1 ≤ 8 := by decide +kernel

theorem witness_FnormCanonicalises : loaded.valid 0#4 = true ∧ TagInv loaded 0#4 := ⟨by decide, tagInv_loaded.1⟩

theorem witness_NormalizerResultLaw :
    (2047 ≤ 2047 ∧ HasMagnitude 2047 (boundVec 2047)) ∧ loaded.valid 0#4 = true ∧ TagInv loaded 0#4 :=
  ⟨by decide +kernel, witness_FnormCanonicalises⟩

theorem witness_NormalizerIdempotent :
    Canonical vecX ∧ Canonical (nearP 0xFFFFEFFFFFC2E#64) ∧ HasMagnitude 2047 (boundVec 2047) ∧
    HasMagnitude 32 (boundVec 32) := by decide +kernel

/-- Each of the four commands meets no fault in `loaded`. -/
theorem witness_CommandsReadBeforeWriting :
    firstFault loaded (.fadd 2#4 0#4 1#4) = none ∧ firstFault loaded (.fmul 0#4 0#4 1#4) = none ∧
    firstFault loaded (.fsqr 1#4 1#4) = none ∧ firstFault loaded (.fnorm 5#4 0#4) = none := by decide

/-- Every fault of R206 is met by some command on some state. -/
theorem witness_FirstFaultInOrderIsRecorded :
    firstFault loaded (.fadd 2#4 0#4 1#4) = none ∧
    firstFault loaded (.fadd 2#4 3#4 0#4) = some (.uninitSrc, 3#4) ∧
    firstFault loaded (.fmul 2#4 0#4 3#4) = some (.uninitSrc, 3#4) ∧
    firstFault (twoRegs vecX 9#6 vecY 9#6) (.fmul 2#4 0#4 1#4) = some (.mulMagnitude, 0#4) ∧
    firstFault (twoRegs vecX 8#6 vecY 9#6) (.fmul 2#4 0#4 1#4) = some (.mulMagnitude, 1#4) ∧
    firstFault (twoRegs vecX 16#6 vecY 17#6) (.fadd 2#4 0#4 1#4) = some (.addMagnitude, 2#4) ∧
    loaded.fault = false ∧ faulted.fault = true := by decide

theorem witness_FaultingCommandWritesNothing :
    EngineMoves (loaded.accept 0x00000033#32) 0x00000033#32 ∧ (∃ t, step (loaded.accept 0x00000033#32) = .next t) ∧
    (∀ i, decode 0x00000333#32 = .command i → firstFault (loaded.accept 0x00000333#32) i ≠ none) ∧
    EngineMoves (loaded.accept 0x00000333#32) 0x00000333#32 ∧ (∃ t, step (loaded.accept 0x00000333#32) = .next t) := by
  have hd : decode 0x00000333#32 = .command (.fsqr 3#4 3#4) := by decide
  refine ⟨engineMoves_accept _ _ rfl, step_run1 (by decide +kernel), fun i h => ?_, engineMoves_accept _ _ rfl,
    step_run1 (by decide +kernel)⟩
  rw [hd] at h
  cases h
  decide

/-- A command that succeeds and one that faults, each with a next state. -/
theorem witness_CommandFrame :
    (∃ t, exec (.fadd 2#4 0#4 1#4) loaded = .next t) ∧ firstFault loaded (.fadd 2#4 0#4 1#4) = none ∧
    (∃ t, exec (.fnorm 2#4 3#4) loaded = .next t) ∧ firstFault loaded (.fnorm 2#4 3#4) ≠ none :=
  ⟨⟨_, exec_fadd_passes (by decide) (by decide) (by decide)⟩, by decide, ⟨_, rfl⟩, by decide⟩

/-- Bytes beside FE[2]: the last below it and the first above its TAG. -/
theorem witness_CommandWindowFrame :
    (∃ t, exec (.fadd 2#4 0#4 1#4) loaded = .next t) ∧
    (∀ off : BitVec 12, off = 0x17F#12 ∨ off = 0x1AC#12 →
      ¬ (0x100 + 0x40 * (destOf (.fadd 2#4 0#4 1#4)).toNat ≤ off.toNat ∧
        off.toNat < 0x12C + 0x40 * (destOf (.fadd 2#4 0#4 1#4)).toNat) ∧
      ¬ (0x014 ≤ off.toNat ∧ off.toNat < 0x01C)) := by
  refine ⟨witness_CommandFrame.1, ?_⟩
  rintro off (rfl | rfl) <;> decide

theorem witness_CommandTagsDoNotDependOnLimbs :
    (∀ k, SameTag loaded loadedOther k) ∧ SameFaultRegs loaded loadedOther ∧
    (∃ t, exec (.fmul 2#4 0#4 1#4) loaded = .next t) ∧ (∃ t, exec (.fmul 2#4 0#4 1#4) loadedOther = .next t) :=
  ⟨by unfold SameTag; decide +kernel, by unfold SameFaultRegs; decide,
    ⟨_, exec_fmul_passes (by decide) (by decide) (by decide) (by decide)⟩,
    ⟨_, exec_fmul_passes (by decide) (by decide) (by decide) (by decide)⟩⟩

theorem witness_UnloadedSourceFaults :
    loaded.valid (firstSource (.fadd 2#4 3#4 1#4)) = false ∧ loaded.fault = false := by decide

/-! ### Faults, invariants, reset -/

theorem witness_FirstFaultIsKept : loaded.fault = false ∧ faulted.fault = true ∧ loaded.allWritten 0#4 = true := by
  decide

theorem witness_FaultIsStickyUntilReset :
    (faulted.accept 0x00001021#32).fault = true ∧ (∃ t, step (faulted.accept 0x00001021#32) = .next t) ∧
    (withEvent faulted .reset).fault = true ∧ HostMoves (withEvent faulted .reset) .reset [] :=
  ⟨by decide, step_run1 (by decide +kernel), by decide, hostMoves_withEvent _ _ (by decide)⟩

theorem witness_FaultedBlockDiscardsCommands :
    faulted.fault = true ∧
    HostMoves (withEvent faulted (.write 0x010#12 32 0x1021#64)) (.write 0x010#12 32 0x1021#64) [] ∧
    (∃ t, hostStep faulted (.write 0x128#12 32 1#64) = .next t) ∧
    (∃ t, hostStep { faulted with fault := false, cause := .none, freg := 0#4, faultCmd := 0#32 }
      (.write 0x128#12 32 1#64) = .next t) := by
  refine ⟨by decide, hostMoves_withEvent _ _ (by decide), ?_, ?_⟩
  · obtain ⟨t, h, _⟩ := next_of_nextIs
      (show nextIs (hostStep faulted (.write 0x128#12 32 1#64)) (fun _ => true) = true by decide +kernel)
    exact ⟨t, h⟩
  · obtain ⟨t, h, _⟩ := next_of_nextIs
      (show nextIs (hostStep { faulted with fault := false, cause := .none, freg := 0#4, faultCmd := 0#32 }
        (.write 0x128#12 32 1#64)) (fun _ => true) = true by decide +kernel)
    exact ⟨t, h⟩

/-- A state that meets the invariant, with a FADD in flight that completes. -/
theorem witness_EveryStepKeepsStateInv :
    StateInv (loaded.accept 0x00001021#32) ∧ ∃ t, step (loaded.accept 0x00001021#32) = .next t := by
  refine ⟨⟨?_, ?_, ?_⟩, step_run1 (by decide +kernel)⟩
  · have h : ∀ i, tagInvHolds (loaded.accept 0x00001021#32) i = true := by decide +kernel
    exact fun i => tagInv_of_holds (h i)
  · unfold FaultInv; decide
  · unfold FlightInv; decide

/-- A reset of an idle block, and one while a command is in flight. -/
theorem witness_PlatformResetClears :
    HostMoves (withEvent loaded .reset) .reset [] ∧ HostMoves (withEvent (loaded.accept 1#32) .reset) .reset [] :=
  ⟨hostMoves_withEvent _ _ (by decide), ⟨_, rfl, rfl, .inr rfl⟩⟩

theorem witness_PlatformResetKeepsOutside :
    HostMoves (withEvent loaded .reset) .reset [] ∧ HostMoves (withEvent (loaded.accept 1#32) .reset) .reset [] :=
  witness_PlatformResetClears

/-- A half-written limb: its low half is written, its high half is not. -/
theorem witness_UnwrittenHalvesReadFree :
    (((limbWrite State.reset 0#4 1 7#64 .lo).feReg 0#4).n[1]).loWritten = true ∧
    (((limbWrite State.reset 0#4 1 7#64 .lo).feReg 0#4).n[1]).hiWritten = false ∧
    step (limbWrite State.reset 0#4 1 7#64 .lo) = .next (limbWrite State.reset 0#4 1 7#64 .lo) ∧
    ((State.reset.feReg 15#4).n[4]).loWritten = false :=
  ⟨by decide, by decide, step_idle rfl rfl, by decide⟩

/-! ### The window -/

/-- An access of each kind: a register, a TAG, the two halves and the whole of the last limb of FE[15]. -/
theorem witness_WindowMap :
    resolve 0x018#12 32 = some .faultCmd ∧ resolve 0x4E8#12 32 = some (.tag 15#4) ∧
    resolve 0x4E0#12 32 = some (.limb 15#4 4 .lo) ∧ resolve 0x4E4#12 32 = some (.limb 15#4 4 .hi) ∧
    resolve 0x4E0#12 64 = some (.limb 15#4 4 .whole) := by decide

/-- Each clause at a boundary of its range, for a read and a write of an idle block. -/
theorem witness_BadAccessesEndInBusError :
    (0x00C ≤ (0x00C#12).toNat ∧ (0x00C#12).toNat < 0x010) ∧ (0x01C ≤ (0x0FC#12).toNat ∧ (0x0FC#12).toNat < 0x100) ∧
    (0x100 ≤ (0x4EC#12).toNat ∧ (0x4EC#12).toNat < 0x500 ∧ 0x2C ≤ (0x4EC#12).toNat % 0x40) ∧
    0x500 ≤ (0x500#12).toNat ∧ (0x016#12).toNat % 4 ≠ 0 ∧ (0x104#12).toNat % 8 ≠ 0 ∧ (16 ≠ 32 ∧ 16 ≠ 64) ∧
    (0x010#12).toNat < 0x100 ∧ (0x128#12).toNat % 0x40 = 0x28 ∧
    HostMoves (withEvent loaded (.read 0x016#12 32)) (.read 0x016#12 32) [] ∧
    HostMoves (withEvent loaded (.write 0x500#12 32 0#64)) (.write 0x500#12 32 0#64) [] :=
  ⟨by decide, by decide, by decide, by decide, by decide, by decide, by decide, by decide, by decide,
    hostMoves_withEvent _ _ (by decide), hostMoves_withEvent _ _ (by decide)⟩

/-- Also for ReadsReturnRegisters: a read of a mapped and of a reserved offset. -/
theorem witness_ReadsHaveNoSideEffects :
    HostMoves (withEvent loaded (.read 0x014#12 32)) (.read 0x014#12 32) [] ∧
    HostMoves (withEvent loaded (.read 0x500#12 32)) (.read 0x500#12 32) [] :=
  ⟨hostMoves_withEvent _ _ (by decide), hostMoves_withEvent _ _ (by decide)⟩

/-- A read for each clause: the six registers, a TAG, a whole limb and its two halves. -/
theorem witness_ReadsReturnRegisters :
    (∀ off width, HostMoves (withEvent loaded (.read off width)) (.read off width) []) ∧
    tagOffset 1#4 = 0x168#12 ∧ limbOffset 1#4 4 = 0x160#12 ∧ limbOffset 1#4 4 + 4#12 = 0x164#12 :=
  ⟨fun _ _ => hostMoves_withEvent _ _ (by decide), by decide, by decide, by decide⟩

theorem witness_ReadOnlyWritesAreIgnored :
    HostMoves (withEvent loaded (.write 0x014#12 32 0xFFFFFFFF#64)) (.write 0x014#12 32 0xFFFFFFFF#64) [] ∧
    HostMoves (withEvent loaded (.read 0x010#12 32)) (.read 0x010#12 32) [] ∧
    (0x00000101#32).toNat % 64 = (0xFFFFFFC1#32).toNat % 64 ∧
    (0x00000101#32).getLsbD 8 = (0xFFFFFFC1#32).getLsbD 8 :=
  ⟨hostMoves_withEvent _ _ (by decide), hostMoves_withEvent _ _ (by decide), by decide, by decide⟩

/-- The last byte of FE[15].TAG and of its last limb, and a write of the high half of that limb. -/
theorem witness_WindowIsLittleEndian :
    (resolve 0x4E8#12 32 = some (.tag 15#4) ∧ 8 * 3 < 32) ∧
    (resolve 0x4E0#12 64 = some (.limb 15#4 4 .whole) ∧ 8 * 7 < 64) ∧
    (resolve 0x4E4#12 32 = some (.limb 15#4 4 .hi) ∧
      HostMoves (withEvent loaded (.write 0x4E4#12 32 7#64)) (.write 0x4E4#12 32 7#64) []) :=
  ⟨by decide, by decide, by decide, hostMoves_withEvent _ _ (by decide)⟩

/-- A 64-bit write, and a write of each half. -/
theorem witness_LimbWriteClearsTag :
    HostMoves (withEvent loaded (.write (limbOffset 0#4 4) 64 7#64)) (.write (limbOffset 0#4 4) 64 7#64) [] ∧
    HostMoves (withEvent faulted (.write (limbOffset 0#4 0) 32 7#64)) (.write (limbOffset 0#4 0) 32 7#64) [] ∧
    HostMoves (withEvent loaded (.write (limbOffset 0#4 0 + 4#12) 32 7#64))
      (.write (limbOffset 0#4 0 + 4#12) 32 7#64) [] :=
  ⟨hostMoves_withEvent _ _ (by decide), hostMoves_withEvent _ _ (by decide), hostMoves_withEvent _ _ (by decide)⟩

/-- A TAG write with unwritten limbs, one that passes at the bound, one that fails by one, with and without a fault. -/
theorem witness_TagWriteChecks :
    (HostMoves (withEvent loaded (.write (tagOffset 3#4) 32 1#64)) (.write (tagOffset 3#4) 32 1#64) [] ∧
      (withEvent loaded (.write (tagOffset 3#4) 32 1#64)).allWritten 3#4 = false) ∧
    (HostMoves (withEvent loaded (.write (tagOffset 0#4) 32 8#64)) (.write (tagOffset 0#4) 32 8#64) [] ∧
      loaded.allWritten 0#4 = true ∧ HasMagnitude 8 (loaded.limbs 0#4) ∧ ¬ HasMagnitude 7 (loaded.limbs 0#4)) ∧
    (HostMoves (withEvent faulted (.write (tagOffset 0#4) 32 7#64)) (.write (tagOffset 0#4) 32 7#64) [] ∧
      faulted.fault = true) :=
  ⟨⟨hostMoves_withEvent _ _ (by decide), by decide⟩,
    ⟨hostMoves_withEvent _ _ (by decide), by decide, by decide +kernel, by decide +kernel⟩,
    ⟨hostMoves_withEvent _ _ (by decide), by decide⟩⟩

/-- With a command in flight: a read that completes at once, one that ends in BusError, and a held write and read. -/
theorem witness_AccessesAreHeldWhileBusy :
    ((withEvent loaded (.read 0x014#12 32)).accept 0x00001021#32).inflight = some 0x00001021#32 ∧
    ((withEvent loaded (.read 0x014#12 32)).accept 0x00001021#32).host =
      { arrival := .whileBusy, action := .read 0x014#12 32 } :: [] ∧
    resolve 0x500#12 32 = none ∧ (resolve 0x010#12 32).isSome = true ∧ (resolve 0x100#12 64).isSome = true ∧
    ¬ (0x100#12 = 0x000#12 ∨ 0x100#12 = 0x004#12 ∨ 0x100#12 = 0x008#12 ∨ 0x100#12 = 0x014#12 ∨
      0x100#12 = 0x018#12) := by decide

/-! ### Host-side functions -/

/-- A value whose check passes and one whose check fails. -/
theorem witness_LoadFeLoadsHostValue :
    (8 < 64 ∧ HasMagnitude 8 (boundVec 8)) ∧ (33 < 64 ∧ ¬ (33 ≤ 32)) ∧ loaded.fault = false := by decide +kernel

theorem witness_StoreFeReadsBack : loaded.valid 0#4 = true := by decide

theorem witness_NegateNegatesModP : HasMagnitude 31 (boundVec 31) ∧ 31 ≤ 31 ∧ 31 + 1 ≤ 32 := by decide +kernel

theorem witness_SmallIntegersMultiply :
    (HasMagnitude 1 (boundVec 1) ∧ 1 ≤ 32 ∧ 1 * 32 ≤ 32) ∧ 2 ^ 52 - 1 < 2 ^ 52 := by decide +kernel

theorem witness_BytesRoundTrip : Canonical (nearP 0xFFFFEFFFFFC2E#64) := by decide +kernel

theorem witness_HostPredicatesAreFieldPredicates : Canonical vecX ∧ Canonical (small 0) := by decide +kernel

end Sys2Proof.Tests
end

section
/-!
The function N (spec/41_normalizer.md R121 to R126): fold, carry pass, the one bit x, and the conditional subtraction of
p, each with the value it leaves. Together: N gives the canonical vector of val mod p.
-/

namespace Sys2Proof.Machine

theorem p_eq : Config.p = 0xFFFFFFFFFFFFFFFFFFFFFFFFFFFFFFFFFFFFFFFFFFFFFFFFFFFFFFFEFFFFFC2F := by decide

theorem toNat_rLimb : rLimb.toNat = 0x1000003D1 := by decide

theorem foldTop_eq (n : Limbs) : foldTop n = ⟨n.n0 + n.n4 >>> 48 * rLimb, n.n1, n.n2, n.n3, n.n4 &&& mask48⟩ := rfl

theorem foldTop_middle (n : Limbs) :
    (foldTop n).n1 = n.n1 ∧ (foldTop n).n2 = n.n2 ∧ (foldTop n).n3 = n.n3 := by
  rw [foldTop_eq]
  exact ⟨rfl, rfl, rfl⟩

/-- N, step 1: x·2^256 of the value becomes x·r, and limb 4 goes below 2^48. No lane wraps up to magnitude 2047. -/
theorem foldTop_spec {n : Limbs} {m : Nat} (hm : m ≤ 2047) (h : HasMagnitude m n) :
    valueOf n = valueOf (foldTop n) + n.n4.toNat / 2 ^ 48 * Config.p ∧ (foldTop n).n4.toNat < 2 ^ 48 := by
  obtain ⟨h0, -, -, -, h4⟩ := h
  simp only [lowBound, topBound] at h0 h4
  have hx : (n.n4 >>> 48 * rLimb).toNat = n.n4.toNat / 2 ^ 48 * 0x1000003D1 := by
    rw [BitVec.toNat_mul, toNat_shiftRight, toNat_rLimb]; omega
  have hn0 : (n.n0 + n.n4 >>> 48 * rLimb).toNat = n.n0.toNat + n.n4.toNat / 2 ^ 48 * 0x1000003D1 := by
    rw [BitVec.toNat_add, hx]; omega
  rw [foldTop_eq, p_eq]
  simp only [valueOf, toNat_mask48, hn0]
  omega

theorem foldTop_mod_p {n : Limbs} {m : Nat} (hm : m ≤ 2047) (h : HasMagnitude m n) :
    valueOf (foldTop n) % Config.p = valueOf n % Config.p := by
  rw [(foldTop_spec hm h).1, Nat.add_mul_mod_self_right]

/-- What steps 1 and 2 leave: limbs 0 to 3 below 2^52, limb 4 with at most one bit above its 48, and the value below
2p, congruent to the source's. -/
theorem carryPass_foldTop_spec {n : Limbs} {m : Nat} (hm : m ≤ 2047) (h : HasMagnitude m n) :
    valueOf (carryPass (foldTop n)) % Config.p = valueOf n % Config.p ∧
      (carryPass (foldTop n)).n0.toNat < 2 ^ 52 ∧ (carryPass (foldTop n)).n1.toNat < 2 ^ 52 ∧
      (carryPass (foldTop n)).n2.toNat < 2 ^ 52 ∧ (carryPass (foldTop n)).n3.toNat < 2 ^ 52 ∧
      (carryPass (foldTop n)).n4.toNat < 2 ^ 48 + 2 ^ 12 := by
  have h4 := (foldTop_spec hm h).2
  have ⟨_, b1, b2, b3, _⟩ := h
  simp only [lowBound] at b1 b2 b3
  obtain ⟨e1, e2, e3⟩ := foldTop_middle n
  obtain ⟨hc, c0, c1, c2, c3, c4⟩ := carryPass_spec (n := foldTop n) (by rw [e1]; omega) (by rw [e2]; omega)
    (by rw [e3]; omega) (by omega)
  exact ⟨by rw [hc, foldTop_mod_p hm h], c0, c1, c2, c3, by omega⟩

/-- Limbs below 2^52 have the conjunction 2^52 − 1 exactly when each of them is 2^52 − 1 (R123). -/
theorem and_eq_pMid52 {a b c : Limb} (ha : a.toNat < 2 ^ 52) (hb : b.toNat < 2 ^ 52) (hc : c.toNat < 2 ^ 52) :
    a &&& b &&& c = Config.pMid52 ↔
      a.toNat = 2 ^ 52 - 1 ∧ b.toNat = 2 ^ 52 - 1 ∧ c.toNat = 2 ^ 52 - 1 := by
  have hp : Config.pMid52.toNat = 2 ^ 52 - 1 := rfl
  rw [← BitVec.toNat_inj, BitVec.toNat_and, BitVec.toNat_and, hp]
  constructor
  · intro h
    have h1 : a.toNat &&& b.toNat &&& c.toNat ≤ a.toNat &&& b.toNat := Nat.and_le_left
    have h2 : a.toNat &&& b.toNat ≤ a.toNat := Nat.and_le_left
    have h3 : a.toNat &&& b.toNat ≤ b.toNat := Nat.and_le_right
    have h4 : a.toNat &&& b.toNat &&& c.toNat ≤ c.toNat := Nat.and_le_right
    omega
  · rintro ⟨ea, eb, ec⟩
    rw [ea, eb, ec]; decide

/-- N, step 3: x is the bit of val ≥ p, for a vector that steps 1 and 2 leave. -/
theorem exceedsP_spec {c : Limbs} (h0 : c.n0.toNat < 2 ^ 52) (h1 : c.n1.toNat < 2 ^ 52) (h2 : c.n2.toNat < 2 ^ 52)
    (h3 : c.n3.toNat < 2 ^ 52) (h4 : c.n4.toNat < 2 ^ 49) :
    (exceedsP c).toNat = if Config.p ≤ valueOf c then 1 else 0 := by
  have htop : c.n4 >>> 48 &&& 1#64 = if 2 ^ 48 ≤ c.n4.toNat then 1#64 else 0#64 := by
    apply BitVec.eq_of_toNat_eq
    rw [BitVec.toNat_and, toNat_shiftRight, show (1#64).toNat = 1 from rfl, Nat.and_one_is_mod]
    split <;> simp <;> omega
  have hlo : Config.pLo52.toNat = 2 ^ 52 - 1 - 2 ^ 32 - 976 := rfl
  have hhi : Config.pHi48.toNat = 2 ^ 48 - 1 := rfl
  simp only [exceedsP, htop]
  by_cases hbig : 2 ^ 48 ≤ c.n4.toNat
  · rw [if_pos hbig, if_pos (by simp only [valueOf, p_eq]; omega)]
    cases (c.n4 == Config.pHi48 && c.n1 &&& c.n2 &&& c.n3 == Config.pMid52 && decide (Config.pLo52 ≤ c.n0)) <;> rfl
  · have hiff : (c.n4 == Config.pHi48 && c.n1 &&& c.n2 &&& c.n3 == Config.pMid52 &&
        decide (Config.pLo52 ≤ c.n0)) = decide (Config.p ≤ valueOf c) := by
      rw [Bool.eq_iff_iff]
      rw [decide_eq_true_eq]
      simp only [Bool.and_eq_true, beq_iff_eq, decide_eq_true_eq, and_eq_pMid52 h1 h2 h3, ← BitVec.toNat_inj,
        BitVec.le_def, hlo, hhi, valueOf, p_eq]
      omega
    rw [if_neg hbig, hiff]
    by_cases hge : Config.p ≤ valueOf c <;> simp [hge, bitLimb]

/-- Clearing bit 48 of a limb below 2^49 keeps its low 48 bits. -/
theorem toNat_clear_bit48 {a : Limb} (h : a.toNat < 2 ^ 49) : (a &&& ~~~(1#64 <<< 48)).toNat = a.toNat % 2 ^ 48 := by
  have hmask : (0x1FFFFFFFFFFFF#64).toNat = 2 ^ 49 - 1 := rfl
  have hself : a &&& 0x1FFFFFFFFFFFF#64 = a := by
    apply BitVec.eq_of_toNat_eq
    rw [BitVec.toNat_and, hmask, Nat.and_two_pow_sub_one_eq_mod, Nat.mod_eq_of_lt h]
  calc (a &&& ~~~(1#64 <<< 48)).toNat
      = (a &&& 0x1FFFFFFFFFFFF#64 &&& ~~~(1#64 <<< 48)).toNat := by rw [hself]
    _ = (a &&& mask48).toNat := by rw [BitVec.and_assoc]; rfl
    _ = a.toNat % 2 ^ 48 := toNat_mask48 a

/-- Bit 48 of limb 4 is the bit of weight 2^256: clearing it, where no higher bit is set, leaves the value mod 2^256. -/
theorem valueOf_clear_bit48 {d : Limbs} (h0 : d.n0.toNat < 2 ^ 52) (h1 : d.n1.toNat < 2 ^ 52)
    (h2 : d.n2.toNat < 2 ^ 52) (h3 : d.n3.toNat < 2 ^ 52) (h4 : d.n4.toNat < 2 ^ 49) :
    valueOf { d with n4 := d.n4 &&& ~~~(1#64 <<< 48) } = valueOf d % 2 ^ 256 := by
  simp only [valueOf, toNat_clear_bit48 h4]
  omega

/-- N, step 4: with x = 1 exactly when val ≥ p, the result is the canonical vector of val mod p, as val < 2p. -/
theorem subtractP_spec {c : Limbs} {x : Limb} (h0 : c.n0.toNat < 2 ^ 52) (h1 : c.n1.toNat < 2 ^ 52)
    (h2 : c.n2.toNat < 2 ^ 52) (h3 : c.n3.toNat < 2 ^ 52) (h4 : c.n4.toNat < 2 ^ 48 + 2 ^ 12)
    (hx : x.toNat = if Config.p ≤ valueOf c then 1 else 0) :
    Canonical (subtractP c x) ∧ valueOf (subtractP c x) = valueOf c % Config.p := by
  have hx1 : x.toNat ≤ 1 := by rw [hx]; split <;> omega
  have hn0 : (c.n0 + x * rLimb).toNat = c.n0.toNat + x.toNat * 0x1000003D1 := by
    rw [BitVec.toNat_add, BitVec.toNat_mul, toNat_rLimb]; omega
  obtain ⟨hd, d0, d1, d2, d3, d4⟩ := carryPass_spec (n := { c with n0 := c.n0 + x * rLimb }) (by simp only; omega)
    (by simp only; omega) (by simp only; omega) (by simp only; omega)
  have hd4 : (carryPass { c with n0 := c.n0 + x * rLimb }).n4.toNat < 2 ^ 49 := by simp only at d4; omega
  have hsum : valueOf { c with n0 := c.n0 + x * rLimb } = valueOf c + x.toNat * 0x1000003D1 := by
    simp only [valueOf, hn0]; omega
  have hc : valueOf c < 2 * Config.p := by simp only [valueOf, p_eq]; omega
  have hval : valueOf (subtractP c x) = valueOf c % Config.p := by
    rw [subtractP, valueOf_clear_bit48 d0 d1 d2 d3 hd4, hd, hsum]
    rw [p_eq] at hx hc ⊢
    split at hx <;> omega
  have hlt : valueOf (subtractP c x) < Config.p := by rw [hval]; exact Nat.mod_lt _ (by decide)
  refine ⟨⟨d0, d1, d2, d3, ?_, hlt⟩, hval⟩
  change (_ &&& ~~~(1#64 <<< 48)).toNat < 2 ^ 48
  rw [toNat_clear_bit48 hd4]
  omega

/-- N gives the canonical vector of val mod p, up to magnitude 2047 (R126). -/
theorem normalizeLimbs_spec {n : Limbs} {m : Nat} (hm : m ≤ 2047) (h : HasMagnitude m n) :
    Canonical (normalizeLimbs n) ∧ valueOf (normalizeLimbs n) = valueOf n % Config.p := by
  obtain ⟨hv, h0, h1, h2, h3, h4⟩ := carryPass_foldTop_spec hm h
  rw [← hv]
  exact subtractP_spec h0 h1 h2 h3 h4 (exceedsP_spec h0 h1 h2 h3 (by omega))

end Sys2Proof.Machine
end

section
/-!
What a command does, said once: with no first fault it writes its result to RD and completes, with one it records it and
completes. The result is three functions of the sources, the limbs and the two tag fields, of which only the limbs read
limbs (spec/10_state.md R25, R27; spec/60_exceptions.md R206).
-/

namespace Sys2Proof.Machine

/-- The limbs a command writes (R100, R120, R161, R163). -/
def resultLimbs (s : State) : Instr → Limbs
  | .fadd _ a b => addLimbs (s.limbs a) (s.limbs b)
  | .fmul _ a b => reduce (cols (s.limbs a) (s.limbs b))
  | .fsqr _ a => reduce (sqcols (s.limbs a))
  | .fnorm _ a => normalizeLimbs (s.limbs a)

/-- The magnitude a command writes. -/
def resultMag (s : State) : Instr → BitVec 6
  | .fadd _ a b => BitVec.ofNat 6 ((s.mag a).toNat + (s.mag b).toNat)
  | .fmul _ _ _ => 1#6
  | .fsqr _ _ => 1#6
  | .fnorm _ _ => 1#6

/-- The normalized flag a command writes. -/
def resultNorm : Instr → Bool
  | .fadd _ _ _ => false
  | .fmul _ _ _ => false
  | .fsqr _ _ => false
  | .fnorm _ _ => true

/-! ### The two outcomes -/

/-- How a command with the word `w` ends: by `success` without a fault, else by that fault. -/
def commandOutcome (s : State) (w : Word) (success : Result) : Option (Cause × RegIx) → Result
  | none => success
  | some (c, f) => commandFault s c f w

section checks
variable (s : State) (w : Word) (success : Result) (e : Option (Cause × RegIx))

/-- A check of a VALID bit before an outcome puts its fault in front of the outcome's own. -/
theorem requireValid_commandOutcome (i : RegIx) :
    requireValid s i w (commandOutcome s w success e) =
      commandOutcome s w success (if s.valid i = false then some (.uninitSrc, i) else e) := by
  cases h : s.valid i <;> simp [requireValid, commandOutcome, h]

theorem requireMulMag_commandOutcome (i : RegIx) :
    requireMulMag s i w (commandOutcome s w success e) =
      commandOutcome s w success (if (s.mag i).toNat > 8 then some (.mulMagnitude, i) else e) := by
  unfold requireMulMag Config.mulMagMax
  by_cases h : (s.mag i).toNat > 8
  · rw [if_pos h, if_pos h]; rfl
  · rw [if_neg h, if_neg h]

theorem requireAddMag_commandOutcome (d a b : RegIx) :
    requireAddMag s d a b w (commandOutcome s w success e) =
      commandOutcome s w success (if (s.mag a).toNat + (s.mag b).toNat > 32 then some (.addMagnitude, d) else e) := by
  unfold requireAddMag Config.magMax
  by_cases h : (s.mag a).toNat + (s.mag b).toNat > 32
  · rw [if_pos h, if_pos h]; rfl
  · rw [if_neg h, if_neg h]

end checks

/-- What a command does: the write of its result, or its first fault (R206). -/
theorem exec_eq_commandOutcome (s : State) (i : Instr) :
    exec i s = commandOutcome s (encode i)
      (commandWrite s (destOf i) (resultLimbs s i) (resultMag s i) (resultNorm i)) (firstFault s i) := by
  cases i with
  | fadd d a b =>
    let w := encode (.fadd d a b)
    change requireValid s a w (requireValid s b w (requireAddMag s d a b w (commandOutcome s w _ none))) = _
    rw [requireAddMag_commandOutcome, requireValid_commandOutcome, requireValid_commandOutcome]
    rfl
  | fmul d a b =>
    let w := encode (.fmul d a b)
    change requireValid s a w (requireValid s b w (requireMulMag s a w (requireMulMag s b w
      (commandOutcome s w _ none)))) = _
    rw [requireMulMag_commandOutcome, requireMulMag_commandOutcome, requireValid_commandOutcome,
      requireValid_commandOutcome]
    rfl
  | fsqr d a =>
    let w := encode (.fsqr d a)
    change requireValid s a w (requireMulMag s a w (commandOutcome s w _ none)) = _
    rw [requireMulMag_commandOutcome, requireValid_commandOutcome]
    rfl
  | fnorm d a =>
    let w := encode (.fnorm d a)
    change requireValid s a w (commandOutcome s w _ none) = _
    rw [requireValid_commandOutcome]
    rfl

/-- A command without a fault writes its result to RD and completes. -/
theorem exec_of_firstFault_none {s : State} {i : Instr} (h : firstFault s i = none) :
    exec i s = .next (s.writeFe (destOf i) (resultLimbs s i) (resultMag s i) (resultNorm i)).complete := by
  rw [exec_eq_commandOutcome, h]
  rfl

/-- A command that meets a fault records it, if it is the first, and completes. -/
theorem exec_of_firstFault_some {s : State} {i : Instr} {c : Cause} {f : RegIx} (h : firstFault s i = some (c, f)) :
    exec i s = .next (s.raiseFault c f (encode i)).complete := by
  rw [exec_eq_commandOutcome, h]
  rfl

/-! ### The checks a command without a fault has passed -/

theorem firstFault_fadd_eq_none {s : State} {d a b : RegIx} (h : firstFault s (.fadd d a b) = none) :
    s.valid a = true ∧ s.valid b = true ∧ (s.mag a).toNat + (s.mag b).toNat ≤ 32 := by
  simp only [firstFault] at h
  split at h
  · cases h
  next ha =>
    split at h
    · cases h
    next hb =>
      split at h
      · cases h
      next hm => exact ⟨eq_true_of_ne_false ha, eq_true_of_ne_false hb, by omega⟩

theorem firstFault_fnorm_eq_none {s : State} {d a : RegIx} (h : firstFault s (.fnorm d a) = none) :
    s.valid a = true := by
  simp only [firstFault] at h
  split at h
  · cases h
  next ha => exact eq_true_of_ne_false ha

end Sys2Proof.Machine
end

section
/-!
The invariant of the block (spec/10_state.md R22 to R24, R32, R33, R35), operation by operation, and that every step
keeps it. A tag is judged with the limbs it stands beside: `GoodTag` is what a command's result, a TAG write and the tag
invariant have in common.
-/

namespace Sys2Proof.Machine

/-- The tag MAG, NORM is true of the limbs (R23): the condition of the tag invariant and of a TAG write's check. -/
def GoodTag (n : Limbs) (mag : BitVec 6) (norm : Bool) : Prop :=
  1 ≤ mag.toNat ∧ mag.toNat ≤ Config.magMax ∧ HasMagnitude mag.toNat n ∧
    (norm = true → mag.toNat = 1 ∧ Canonical n)

theorem tagInv_iff (s : State) (i : RegIx) :
    TagInv s i ↔ (s.valid i = true → s.allWritten i = true ∧ GoodTag (s.limbs i) (s.mag i) (s.norm i)) ∧
      (s.valid i = false → s.mag i = 0#6 ∧ s.norm i = false) := Iff.rfl

theorem tagCheck_iff (n : Limbs) (t : Word) : TagCheck n t ↔ GoodTag n (tagMag t) (tagNorm t) := Iff.rfl

theorem TagInv.goodTag {s : State} {i : RegIx} (h : TagInv s i) (hv : s.valid i = true) :
    GoodTag (s.limbs i) (s.mag i) (s.norm i) := (h.1 hv).2

/-! ### The results of the commands -/

/-- Limbs 0 to 3 below 2^52 and limb 4 below 2^48 have magnitude 1, the flag clear (R15). -/
theorem goodTag_one_of_range {n : Limbs} (h : n.n0.toNat < 2 ^ 52 ∧ n.n1.toNat < 2 ^ 52 ∧ n.n2.toNat < 2 ^ 52 ∧
    n.n3.toNat < 2 ^ 52 ∧ n.n4.toNat < 2 ^ 48) : GoodTag n 1#6 false := by
  refine ⟨by decide, by decide, ?_, by simp⟩
  simp only [HasMagnitude, lowBound, topBound, show (1#6).toNat = 1 from rfl]
  omega

theorem goodTag_reduce (c : Columns) : GoodTag (reduce c) 1#6 false := goodTag_one_of_range (limbsOf_range _)

theorem goodTag_of_canonical {n : Limbs} (h : Canonical n) : GoodTag n 1#6 true := by
  obtain ⟨h0, h1, h2, h3, h4, -⟩ := id h
  obtain ⟨hlo, hhi, hmag, -⟩ := goodTag_one_of_range ⟨h0, h1, h2, h3, h4⟩
  exact ⟨hlo, hhi, hmag, fun _ => ⟨rfl, h⟩⟩

/-- The lanes of FADD add the magnitudes (R100); a lane that wrapped would only be smaller. -/
theorem hasMagnitude_addLimbs {a b : Limbs} {k l : Nat} (ha : HasMagnitude k a)
    (hb : HasMagnitude l b) : HasMagnitude (k + l) (addLimbs a b) := by
  obtain ⟨a0, a1, a2, a3, a4⟩ := ha
  obtain ⟨b0, b1, b2, b3, b4⟩ := hb
  simp only [HasMagnitude, lowBound, topBound, addLimbs, BitVec.toNat_add] at *
  omega

theorem goodTag_addLimbs {a b : Limbs} {k l : BitVec 6} {y z : Bool} (hkl : k.toNat + l.toNat ≤ 32)
    (ha : GoodTag a k y) (hb : GoodTag b l z) :
    GoodTag (addLimbs a b) (BitVec.ofNat 6 (k.toNat + l.toNat)) false := by
  obtain ⟨hk, -, hma, -⟩ := ha
  obtain ⟨-, -, hmb, -⟩ := hb
  have hm : (BitVec.ofNat 6 (k.toNat + l.toNat)).toNat = k.toNat + l.toNat := by
    rw [BitVec.toNat_ofNat]; omega
  unfold GoodTag
  rw [hm]
  exact ⟨by omega, hkl, hasMagnitude_addLimbs hma hmb, by simp⟩

/-- What a command without a fault writes to RD meets the tag invariant there (R23). -/
theorem goodTag_result {s : State} (hs : ∀ k, TagInv s k) {i : Instr} (h : firstFault s i = none) :
    GoodTag (resultLimbs s i) (resultMag s i) (resultNorm i) := by
  cases i with
  | fadd d a b =>
    obtain ⟨ha, hb, hm⟩ := firstFault_fadd_eq_none h
    exact goodTag_addLimbs hm ((hs a).goodTag ha) ((hs b).goodTag hb)
  | fmul d a b => exact goodTag_reduce _
  | fsqr d a => exact goodTag_reduce _
  | fnorm d a =>
    obtain ⟨-, hmax, hmag, -⟩ := (hs a).goodTag (firstFault_fnorm_eq_none h)
    have hm : (s.mag a).toNat ≤ 2047 := Nat.le_trans hmax (by decide)
    exact goodTag_of_canonical (normalizeLimbs_spec hm hmag).1

/-! ### The tag invariant, operation by operation -/

/-- The tag invariant of FE[i] speaks of FE[i] only. -/
theorem TagInv.of_sameReg {s t : State} {i : RegIx} (hr : SameReg s t i) (h : TagInv s i) : TagInv t i := by
  obtain ⟨hfe, hl⟩ := hr
  simpa only [TagInv, State.valid, State.allWritten, State.mag, State.norm, hfe, hl] using h

theorem sameReg_of_feReg {s t : State} {i : RegIx} (h : t.feReg i = s.feReg i) (he : t.epoch = s.epoch) :
    SameReg s t i := ⟨h, State.limbs_congr i h he⟩

theorem tagInv_of_cleared {s : State} {i : RegIx} (h : TagCleared s i) : TagInv s i := by
  obtain ⟨hv, hm, hn⟩ := h
  exact ⟨by simp [hv], fun _ => ⟨hm, hn⟩⟩

theorem tagCleared_of_atReset {s : State} {i : RegIx} (h : s.feReg i = FeReg.atReset) : TagCleared s i := by
  simp [TagCleared, State.valid, State.mag, State.norm, h, FeReg.atReset]

section tagInv
variable {s : State} (i k : RegIx) (h : TagInv s k)
include h

theorem tagInv_raiseFault (c : Cause) (f : RegIx) (w : Word) : TagInv (s.raiseFault c f w) k :=
  h.of_sameReg (sameReg_of_feReg (by simp) (by simp))

theorem tagInv_writeFe {n : Limbs} {m : BitVec 6} {z : Bool} (hg : GoodTag n m z) : TagInv (s.writeFe i n m z) k := by
  by_cases hk : k = i
  · subst hk
    simpa [tagInv_iff] using hg
  · exact h.of_sameReg (sameReg_of_feReg (s.feReg_writeFe_other i k n m z hk) rfl)

theorem tagInv_writeCell (j : Fin 5) (c : LimbCell) : TagInv (s.writeCell i j c) k := by
  by_cases hk : k = i
  · subst hk
    exact tagInv_of_cleared (by simp [TagCleared])
  · exact h.of_sameReg (sameReg_of_feReg (s.feReg_writeCell_other i k j c hk) rfl)

theorem tagInv_clearTag : TagInv (s.clearTag i) k := by
  by_cases hk : k = i
  · subst hk
    exact tagInv_of_cleared (by simp [TagCleared])
  · exact h.of_sameReg (sameReg_of_feReg (s.feReg_clearTag_other i k hk) rfl)

theorem tagInv_setTag {m : BitVec 6} {z : Bool} (ha : s.allWritten i = true) (hg : GoodTag (s.limbs i) m z) :
    TagInv (s.setTag i m z) k := by
  by_cases hk : k = i
  · subst hk
    simpa [tagInv_iff, ha] using hg
  · exact h.of_sameReg (sameReg_of_feReg (s.feReg_setTag_other i k m z hk) rfl)

/-- A TAG write of written limbs sets a tag its check holds of, or clears the tag (R62). -/
theorem tagInv_tagWrite (t : Word) (ha : s.allWritten i = true) : TagInv (tagWrite s i t) k := by
  obtain ⟨hc, e⟩ | ⟨-, e⟩ := tagWrite_cases s i t <;> rw [e]
  · exact tagInv_setTag i k h ha hc
  · exact tagInv_raiseFault k (tagInv_clearTag i k h) _ _ _

end tagInv

/-! ### The fault registers and BUSY -/

theorem faultInv_raiseFault {s : State} (h : FaultInv s) {c : Cause} (hc : c ≠ .none) (f : RegIx) (w : Word) :
    FaultInv (s.raiseFault c f w) := by
  obtain ⟨-, e⟩ | ⟨-, e⟩ := s.raiseFault_cases c f w <;> rw [e]
  · exact h
  · exact ⟨by simp, fun _ => hc⟩

theorem faultInv_tagWrite {s : State} (h : FaultInv s) (i : RegIx) (t : Word) : FaultInv (tagWrite s i t) := by
  obtain ⟨-, e⟩ | ⟨-, e⟩ := tagWrite_cases s i t <;> rw [e]
  · exact h
  · exact faultInv_raiseFault (s := s.clearTag i) h (by decide) _ _

theorem flightInv_complete (s : State) : FlightInv s.complete := ⟨rfl, fun _ => rfl⟩

theorem flightInv_accept {s : State} (h : s.fault = false) (w : Word) : FlightInv (s.accept w) :=
  ⟨rfl, by simp [h]⟩

/-- A TAG write moves nothing in or out of INFLIGHT. -/
theorem tagWrite_flight (s : State) (i : RegIx) (t : Word) :
    (tagWrite s i t).inflight = s.inflight ∧ (tagWrite s i t).busy = s.busy := by
  obtain ⟨-, e⟩ | ⟨-, e⟩ := tagWrite_cases s i t <;> rw [e] <;> simp

/-! ### The moves -/

theorem stateInv_commandFault {s : State} (hs : StateInv s) {c : Cause} (hc : c ≠ .none) (f : RegIx) (w : Word) :
    StateInv (s.raiseFault c f w).complete := by
  obtain ⟨htag, hfault, -⟩ := hs
  exact ⟨fun k => tagInv_raiseFault k (htag k) c f w, faultInv_raiseFault hfault hc f w, flightInv_complete _⟩

/-- Each check of a command names a cause of its own (R201). -/
theorem firstFault_cause_ne_none {s : State} {i : Instr} {c : Cause} {f : RegIx} (h : firstFault s i = some (c, f)) :
    c ≠ .none := by
  cases i
  all_goals
    simp only [firstFault] at h
    repeat' split at h
    all_goals cases h
    all_goals decide

theorem stateInv_exec {s t : State} {i : Instr} (hs : StateInv s) (h : exec i s = .next t) : StateInv t := by
  cases hf : firstFault s i with
  | none =>
    rw [exec_of_firstFault_none hf] at h
    cases h
    obtain ⟨htag, hfault, -⟩ := hs
    exact ⟨fun k => tagInv_writeFe _ k (htag k) (goodTag_result htag hf), hfault, flightInv_complete _⟩
  | some cf =>
    rw [exec_of_firstFault_some hf] at h
    cases h
    exact stateInv_commandFault hs (firstFault_cause_ne_none hf) _ _

theorem stateInv_engineStep {s t : State} {w : Word} (hs : StateInv s) (h : engineStep s w = .next t) :
    StateInv t := by
  unfold engineStep at h
  cases hd : decode w with
  | command i =>
    rw [hd] at h
    exact stateInv_exec hs h
  | illegal why =>
    rw [hd] at h
    cases h
    exact stateInv_commandFault hs (by decide) _ _

/-- A write that reaches a register lands with INFLIGHT empty (R65), so a fault it records finds it so. -/
theorem stateInv_write {s t : State} (hs : StateInv s) (hi : s.inflight = none) (h : WriteEffect s t) :
    StateInv t := by
  obtain ⟨htag, hfault, hflight⟩ := hs
  cases h with
  | ignored => exact ⟨htag, hfault, hflight⟩
  | issued w hf => exact ⟨htag, hfault, flightInv_accept hf w⟩
  | limb i j c => exact ⟨fun k => tagInv_writeCell i k (htag k) j c, hfault, hflight⟩
  | tag i x ha =>
    obtain ⟨hin, hbusy⟩ := tagWrite_flight s i x
    refine ⟨fun k => tagInv_tagWrite i k (htag k) x ha, faultInv_tagWrite hfault i x, ?_, fun _ => ?_⟩
    · change (tagWrite s i x).busy = (tagWrite s i x).inflight.isSome
      rw [hin, hbusy]
      exact hflight.1
    · change (tagWrite s i x).inflight = none
      rw [hin, hi]

theorem stateInv_atReset {s : State} (hfe : ∀ i, s.feReg i = FeReg.atReset) (hfault : FaultInv s)
    (hflight : FlightInv s) : StateInv s :=
  ⟨fun i => tagInv_of_cleared (tagCleared_of_atReset (hfe i)), hfault, hflight⟩

/-- A write that reaches a register is held while a command is in flight (R65). -/
theorem inflight_eq_none_of_write {s : State} {off : BitVec 12} {width : Nat} {v : BitVec 64} {rest : List HostEvent}
    {r : Target} (h : HostMoves s (.write off width v) rest) (hr : resolve off width = some r) :
    s.inflight = none := by
  obtain ⟨e, -, ha, hi | hg⟩ := h
  · exact hi
  · unfold goesFirst at hg
    cases harr : e.arrival <;> simp [harr, ha, notHeld, hr] at hg

theorem stateInv_host {s t : State} {a : HostAction} {rest : List HostEvent} (hs : StateInv s)
    (hm : HostMoves s a rest) (h : hostStep (s.setHost rest) a = .next t) : StateInv t := by
  obtain ⟨-, e⟩ | ⟨r, e⟩ | ⟨off, width, v, r, rfl, hr, e⟩ := hostStep_cases (s.setHost rest) a <;> rw [e] at h
  · cases h
    exact stateInv_atReset (by simp) (by simp [FaultInv]) (by simp [FlightInv])
  · cases h
    exact hs
  · obtain ⟨t', e', heff⟩ | ⟨i, -, -, e'⟩ := writeTarget_cases (s.setHost rest) v r <;> rw [e'] at h <;> cases h
    have hi : s.inflight = none := inflight_eq_none_of_write hm hr
    exact stateInv_write (s := s.setHost rest) hs hi heff

/-- Settles O36: whichever of the three moves the step is, it keeps the tags (what a command writes is good, a host's
limb write clears, a TAG write is checked), the fault registers and BUSY. -/
theorem everyStepKeepsStateInv : Obligations.EveryStepKeepsStateInv := by
  intro s t hs h
  obtain ⟨w, hw⟩ | ⟨a, rest, hm⟩ | ⟨hi, hh⟩ := moves_cases s
  · rw [step_engine hw] at h
    exact stateInv_engineStep hs h
  · rw [step_host hm] at h
    exact stateInv_host hs hm h
  · rw [step_idle hi hh] at h
    cases h
    exact hs

/-- Settles O37. -/
theorem resetMeetsStateInv : Obligations.ResetMeetsStateInv :=
  stateInv_atReset State.feReg_reset (by simp [FaultInv, State.reset]) (by simp [FlightInv, State.reset])

/-- Settles O38. -/
theorem resetState : Obligations.ResetState := by
  refine ⟨fun i => ?_, by decide, rfl, rfl, fun i j => ?_, by decide, by decide, by decide⟩
  · obtain ⟨hv, hm, hn⟩ := tagCleared_of_atReset (State.feReg_reset i)
    exact ⟨hm, hn, hv⟩
  · simp [State.feReg_reset, FeReg.atReset, LimbCell.atReset]

end Sys2Proof.Machine
end

section
/-!
The frame of a command (spec/10_state.md R27; spec/60_exceptions.md R204), and that its tags and faults come from tags
alone (spec/10_state.md R25).
-/

namespace Sys2Proof.Machine

theorem sameTag_of_feReg {s t : State} {i : RegIx} (h : t.feReg i = s.feReg i) : SameTag s t i := by
  simp [SameTag, State.mag, State.norm, State.valid, h]

/-- Settles O29: the two outcomes of a command, the write of RD and the recorded fault, have the frame. -/
theorem commandFrame : Obligations.CommandFrame := by
  intro i s t h
  cases hf : firstFault s i with
  | none =>
    rw [exec_of_firstFault_none hf] at h
    cases h
    refine ⟨fun k hk => ?_, ⟨rfl, rfl, rfl⟩, ⟨rfl, rfl⟩, fun _ => ⟨rfl, rfl, rfl, rfl⟩, by simp⟩
    have hreg := s.feReg_writeFe_other (destOf i) k (resultLimbs s i) (resultMag s i) (resultNorm i) hk
    exact ⟨sameReg_of_feReg hreg rfl, sameTag_of_feReg hreg⟩
  | some cf =>
    obtain ⟨c, f⟩ := cf
    rw [exec_of_firstFault_some hf] at h
    cases h
    have hsame : ∀ k, SameReg s (s.raiseFault c f (encode i)).complete k ∧
        SameTag s (s.raiseFault c f (encode i)).complete k := fun k =>
      ⟨sameReg_of_feReg (by simp) (by simp), sameTag_of_feReg (by simp)⟩
    exact ⟨fun k _ => hsame k, by simp [SameOutside], ⟨rfl, rfl⟩, by simp, fun _ => hsame _⟩

/-! ### Tags do not depend on limbs -/

section sameTags
variable {s u : State} (h : ∀ k, SameTag s u k)
include h

theorem firstFault_congr (i : Instr) : firstFault u i = firstFault s i := by
  have hv : ∀ k, u.valid k = s.valid k := fun k => (h k).2.2
  have hm : ∀ k, u.mag k = s.mag k := fun k => (h k).1
  cases i <;> simp only [firstFault, hv, hm]

theorem resultMag_congr (i : Instr) : resultMag u i = resultMag s i := by
  have hm : ∀ k, u.mag k = s.mag k := fun k => (h k).1
  cases i <;> simp only [resultMag, hm]

/-- A register of the same tags given the same new tag, whatever the limbs. -/
theorem sameTag_writeFe (d k : RegIx) (n n' : Limbs) (m : BitVec 6) (z : Bool) :
    SameTag (s.writeFe d n m z) (u.writeFe d n' m z) k := by
  by_cases hk : k = d
  · subst hk
    simp [SameTag]
  · have hs := s.feReg_writeFe_other d k n m z hk
    have hu := u.feReg_writeFe_other d k n' m z hk
    simpa only [SameTag, State.mag, State.norm, State.valid, hs, hu] using h k

end sameTags

/-- The same fault meets the same fault registers in the same way (R203). -/
theorem sameFaultRegs_raiseFault {s u : State} (h : SameFaultRegs s u) (c : Cause) (f : RegIx) (w : Word) :
    SameFaultRegs (s.raiseFault c f w) (u.raiseFault c f w) := by
  obtain ⟨hfault, -⟩ := id h
  obtain ⟨hs, es⟩ | ⟨hs, es⟩ := s.raiseFault_cases c f w
  · rw [es, u.raiseFault_of_fault c f w (hfault.trans hs)]
    exact h
  · obtain ⟨hu, -⟩ | ⟨-, eu⟩ := u.raiseFault_cases c f w
    · simp [hfault, hs] at hu
    · rw [es, eu]
      exact ⟨rfl, rfl, rfl, rfl⟩

/-- Settles O31: the first fault and the result's tag are functions of the tags. -/
theorem commandTagsDoNotDependOnLimbs : Obligations.CommandTagsDoNotDependOnLimbs := by
  intro i s u s' u' htags hregs hs hu
  have hcongr := firstFault_congr htags i
  cases hf : firstFault s i with
  | none =>
    rw [exec_of_firstFault_none hf] at hs
    rw [exec_of_firstFault_none (hcongr.trans hf), resultMag_congr htags] at hu
    cases hs
    cases hu
    exact ⟨fun k => sameTag_writeFe htags _ k _ _ _ _, hregs⟩
  | some cf =>
    rw [exec_of_firstFault_some hf] at hs
    rw [exec_of_firstFault_some (hcongr.trans hf)] at hu
    cases hs
    cases hu
    exact ⟨fun k => by simpa [SameTag] using htags k, sameFaultRegs_raiseFault hregs _ _ _⟩

end Sys2Proof.Machine
end

section
/-!
What a read returns (spec/10_state.md R28 to R34; spec/20_memory.md R53, R55, R63): which register an offset of the map
reaches, and the value of each register as a number.
-/

namespace Sys2Proof.Machine

/-! ### The map (R53, R55) -/

section map
variable (i : RegIx) (j : Fin 5)

theorem toNat_limbOffset : (limbOffset i j).toNat = 0x100 + 0x40 * i.toNat + 8 * j.val := by
  rw [limbOffset, BitVec.toNat_ofNat]; omega

theorem toNat_limbOffset_add_four : (limbOffset i j + 4#12).toNat = 0x100 + 0x40 * i.toNat + (8 * j.val + 4) := by
  rw [BitVec.toNat_add, toNat_limbOffset, show (4#12).toNat = 4 from rfl]; omega

theorem toNat_tagOffset : (tagOffset i).toNat = 0x100 + 0x40 * i.toNat + 0x28 := by
  rw [tagOffset, BitVec.toNat_ofNat]; omega

/-- Byte `k` of the 64 bytes of FE[i]. -/
theorem feIndex_feByte {k : Nat} (hk : k < 0x40) :
    feIndex (0x100 + 0x40 * i.toNat + k) = i ∧ feByte (0x100 + 0x40 * i.toNat + k) = k := by
  constructor
  · apply BitVec.eq_of_toNat_eq
    rw [feIndex, BitVec.toNat_ofNat]; omega
  · rw [feByte]; omega

theorem limbAt_of_div_eq {k : Nat} (h : k / 8 = j.val) (part : Part) : limbAt i k part = some (.limb i j part) := by
  have hj : (⟨k / 8, by omega⟩ : Fin 5) = j := Fin.ext h
  rw [limbAt, dif_pos (by omega), hj]

/-- A 32-bit access inside a register's 64 bytes is resolved there. -/
theorem resolve_fe32 {off : BitVec 12} {k : Nat} (h : off.toNat = 0x100 + 0x40 * i.toNat + k) (hk : k < 0x40)
    (h4 : k % 4 = 0) : resolve off 32 = resolveFe32 i k := by
  obtain ⟨hi, hb⟩ := feIndex_feByte i hk
  rw [resolve, if_pos ⟨rfl, by omega⟩, h]
  simp only [resolve32]
  iterate 6 rw [if_neg (by omega)]
  rw [if_pos (by omega), hi, hb]

theorem resolve_tag : resolve (tagOffset i) 32 = some (.tag i) :=
  resolve_fe32 i (toNat_tagOffset i) (by omega) (by omega)

theorem resolve_limb_lo : resolve (limbOffset i j) 32 = some (.limb i j .lo) := by
  rw [resolve_fe32 i (toNat_limbOffset i j) (by omega) (by omega), resolveFe32, if_neg (by omega), if_pos (by omega)]
  exact limbAt_of_div_eq i j (by omega) .lo

theorem resolve_limb_hi : resolve (limbOffset i j + 4#12) 32 = some (.limb i j .hi) := by
  rw [resolve_fe32 i (toNat_limbOffset_add_four i j) (by omega) (by omega), resolveFe32, if_neg (by omega),
    if_neg (by omega)]
  exact limbAt_of_div_eq i j (by omega) .hi

theorem resolve_limb_whole : resolve (limbOffset i j) 64 = some (.limb i j .whole) := by
  obtain ⟨hi, hb⟩ := feIndex_feByte i (show 8 * j.val < 0x40 by omega)
  have h := toNat_limbOffset i j
  rw [resolve, if_neg (by omega), if_pos ⟨rfl, by omega⟩, h, resolve64, if_pos (by omega), hi, hb]
  exact limbAt_of_div_eq i j (by omega) .whole

end map

/-! ### Values as numbers -/

theorem toNat_loHalf (v : Limb) : (loHalf v).toNat = v.toNat % 2 ^ 32 := by
  rw [loHalf, BitVec.extractLsb'_toNat, Nat.shiftRight_zero]

theorem toNat_hiHalf (v : Limb) : (hiHalf v).toNat = v.toNat / 2 ^ 32 := by
  rw [hiHalf, BitVec.extractLsb'_toNat, Nat.shiftRight_eq_div_pow]; omega

theorem toNat_bit32 (b : Bool) : (bit32 b).toNat = b.toNat := by cases b <;> rfl

/-- A field put above the bits below it adds its weight. -/
theorem toNat_or_shiftLeft {a b : Word} {k : Nat} (ha : a.toNat < 2 ^ k) (hb : b.toNat * 2 ^ k < 2 ^ 32) :
    (a ||| b <<< k).toNat = a.toNat + 2 ^ k * b.toNat := by
  rw [BitVec.toNat_or, BitVec.toNat_shiftLeft, Nat.shiftLeft_eq, Nat.mod_eq_of_lt hb, Nat.or_comm, Nat.mul_comm,
    ← Nat.two_pow_add_eq_or_of_lt ha, Nat.add_comm]

theorem toNat_statusWord (busy fault : Bool) (cause : Cause) (freg : RegIx) :
    (statusWord busy fault cause freg).toNat =
      busy.toNat + 2 * fault.toNat + 16 * (causeCode cause).toNat + 256 * freg.toNat := by
  have hb := busy.toNat_le
  have hf := fault.toNat_le
  have hc : ((causeCode cause).setWidth 32).toNat = (causeCode cause).toNat := by
    rw [BitVec.toNat_setWidth]; omega
  have hr : (freg.setWidth 32).toNat = freg.toNat := by rw [BitVec.toNat_setWidth]; omega
  have h1 := toNat_or_shiftLeft (a := bit32 busy) (b := bit32 fault) (k := 1) (by rw [toNat_bit32]; omega)
    (by rw [toNat_bit32]; omega)
  rw [toNat_bit32, toNat_bit32] at h1
  have h2 := toNat_or_shiftLeft (a := bit32 busy ||| bit32 fault <<< 1) (b := (causeCode cause).setWidth 32) (k := 4)
    (by rw [h1]; omega) (by omega)
  rw [h1, hc] at h2
  have h3 := toNat_or_shiftLeft
    (a := bit32 busy ||| bit32 fault <<< 1 ||| (causeCode cause).setWidth 32 <<< 4) (b := freg.setWidth 32) (k := 8)
    (by rw [h2]; omega) (by omega)
  rw [h2, hr] at h3
  refine h3.trans ?_
  omega

theorem toNat_tagWord (mag : BitVec 6) (norm valid : Bool) :
    (tagWord mag norm valid).toNat = mag.toNat + 256 * norm.toNat + 65536 * valid.toNat := by
  have hn := norm.toNat_le
  have hv := valid.toNat_le
  have hm : (mag.setWidth 32).toNat = mag.toNat := by rw [BitVec.toNat_setWidth]; omega
  have h1 := toNat_or_shiftLeft (a := mag.setWidth 32) (b := bit32 norm) (k := 8) (by omega)
    (by rw [toNat_bit32]; omega)
  rw [hm, toNat_bit32] at h1
  have hcomm : tagWord mag norm valid = mag.setWidth 32 ||| bit32 norm <<< 8 ||| bit32 valid <<< 16 := by
    rw [tagWord, BitVec.or_assoc, BitVec.or_comm, BitVec.or_comm (bit32 norm <<< 8)]
  have h2 := toNat_or_shiftLeft (a := mag.setWidth 32 ||| bit32 norm <<< 8) (b := bit32 valid) (k := 16)
    (by rw [h1]; omega) (by rw [toNat_bit32]; omega)
  rw [h1, toNat_bit32] at h2
  rw [hcomm]
  refine h2.trans ?_
  omega

theorem setWidth_eq_ofNat {w : Nat} {x : BitVec w} {n : Nat} (h : x.toNat = n) :
    x.setWidth 64 = BitVec.ofNat 64 n := by
  rw [← h, BitVec.ofNat_toNat]

/-! ### The response -/

/-- A read that reaches a register answers with its value. -/
theorem step_read {s : State} {off : BitVec 12} {width : Nat} {rest : List HostEvent}
    (h : HostMoves s (.read off width) rest) :
    ∃ t, step s = .next t ∧
      ∀ r, resolve off width = some r → t.responses = s.responses ++ [.data (readTarget s r)] := by
  rw [step_host h]
  cases hr : resolve off width with
  | none => exact ⟨(s.setHost rest).respond .busError, by simp [hostStep, hr], by simp⟩
  | some r =>
    refine ⟨(s.setHost rest).respond (.data (readTarget s r)), ?_, ?_⟩
    · simp only [hostStep, hr]
      cases r <;> rfl
    · rintro r' ⟨⟩
      rfl

/-- Settles O44: the offset names the register (the map), the register's value is its number. -/
theorem readsReturnRegisters : Obligations.ReadsReturnRegisters := by
  intro s off width rest h
  obtain ⟨t, hstep, hread⟩ := step_read h
  refine ⟨t, hstep, ?_, ?_, ?_, ?_, ?_, ?_, ?_, ?_, ?_, ?_⟩
  · rintro rfl rfl
    exact hread .id rfl
  · rintro rfl rfl
    exact hread .version rfl
  · rintro rfl rfl
    exact hread .param rfl
  · rintro rfl rfl
    exact hread .cmd rfl
  · rintro rfl rfl
    rw [hread .status rfl, readTarget, setWidth_eq_ofNat (toNat_statusWord _ _ _ _)]
  · rintro rfl rfl
    rw [hread .faultCmd rfl, readTarget, setWidth_eq_ofNat rfl]
  · rintro i rfl rfl
    rw [hread _ (resolve_tag i), readTarget, setWidth_eq_ofNat (toNat_tagWord _ _ _)]
  · rintro i j rfl rfl
    exact hread _ (resolve_limb_whole i j)
  · rintro i j rfl rfl
    rw [hread _ (resolve_limb_lo i j), readTarget, partOf, setWidth_eq_ofNat (toNat_loHalf _)]
  · rintro i j rfl rfl
    rw [hread _ (resolve_limb_hi i j), readTarget, partOf, setWidth_eq_ofNat (toNat_hiHalf _)]

end Sys2Proof.Machine
end

section
/-!
The window's map as a relation (spec/20_memory.md R52 to R56): the accesses that reach a register, one constructor for
each row, and that `resolve` decides exactly this relation. Every statement about an access is a case analysis over it.
-/

namespace Sys2Proof.Machine

/-- An access of `width` bits at `off` reaches the register `r` (R52, R53, R55). -/
inductive Reaches : (off : BitVec 12) → (width : Nat) → (r : Target) → Prop where
  | id : Reaches 0x000#12 32 .id
  | version : Reaches 0x004#12 32 .version
  | param : Reaches 0x008#12 32 .param
  | cmd : Reaches 0x010#12 32 .cmd
  | status : Reaches 0x014#12 32 .status
  | faultCmd : Reaches 0x018#12 32 .faultCmd
  | tag (i : RegIx) : Reaches (tagOffset i) 32 (.tag i)
  | lo (i : RegIx) (j : Fin 5) : Reaches (limbOffset i j) 32 (.limb i j .lo)
  | hi (i : RegIx) (j : Fin 5) : Reaches (limbOffset i j + 4#12) 32 (.limb i j .hi)
  | whole (i : RegIx) (j : Fin 5) : Reaches (limbOffset i j) 64 (.limb i j .whole)

theorem Reaches.resolve_eq {off : BitVec 12} {width : Nat} {r : Target} (h : Reaches off width r) :
    resolve off width = some r := by
  cases h with
  | id => rfl
  | version => rfl
  | param => rfl
  | cmd => rfl
  | status => rfl
  | faultCmd => rfl
  | tag i => exact resolve_tag i
  | lo i j => exact resolve_limb_lo i j
  | hi i j => exact resolve_limb_hi i j
  | whole i j => exact resolve_limb_whole i j

/-! ### Inside a register's 64 bytes -/

/-- An offset of the register file is byte `feByte` of the register `feIndex`. -/
theorem eq_feIndex_add_feByte {o : Nat} (h : 0x100 ≤ o ∧ o < 0x500) :
    o = 0x100 + 0x40 * (feIndex o).toNat + feByte o := by
  rw [feIndex, feByte, BitVec.toNat_ofNat]; omega

theorem limbAt_eq_some {i : RegIx} {k : Nat} {part : Part} {r : Target} (h : limbAt i k part = some r) :
    ∃ j : Fin 5, k / 8 = j.val ∧ r = .limb i j part := by
  unfold limbAt at h
  split at h
  · cases h
    exact ⟨_, rfl, rfl⟩
  · cases h

theorem reaches_of_resolveFe32 {off : BitVec 12} {i : RegIx} {k : Nat} {r : Target}
    (hoff : off.toNat = 0x100 + 0x40 * i.toNat + k) (h4 : k % 4 = 0) (h : resolveFe32 i k = some r) :
    Reaches off 32 r := by
  unfold resolveFe32 at h
  split at h
  next hk =>
    cases h
    have : off = tagOffset i := BitVec.eq_of_toNat_eq (by rw [hoff, toNat_tagOffset, hk])
    exact this ▸ .tag i
  next =>
    split at h
    next h8 =>
      obtain ⟨j, hj, rfl⟩ := limbAt_eq_some h
      have : off = limbOffset i j := BitVec.eq_of_toNat_eq (by rw [hoff, toNat_limbOffset]; omega)
      exact this ▸ .lo i j
    next h8 =>
      obtain ⟨j, hj, rfl⟩ := limbAt_eq_some h
      have : off = limbOffset i j + 4#12 := BitVec.eq_of_toNat_eq (by rw [hoff, toNat_limbOffset_add_four]; omega)
      exact this ▸ .hi i j

/-! ### The whole window -/

theorem reaches_of_resolve32 {off : BitVec 12} {r : Target} (h4 : off.toNat % 4 = 0)
    (h : resolve32 off.toNat = some r) : Reaches off 32 r := by
  have hat : ∀ x : BitVec 12, off.toNat = x.toNat → off = x := fun x => BitVec.eq_of_toNat_eq
  unfold resolve32 at h
  split at h
  next e => cases h; exact hat 0x000#12 e ▸ .id
  split at h
  next e => cases h; exact hat 0x004#12 e ▸ .version
  split at h
  next e => cases h; exact hat 0x008#12 e ▸ .param
  split at h
  next e => cases h; exact hat 0x010#12 e ▸ .cmd
  split at h
  next e => cases h; exact hat 0x014#12 e ▸ .status
  split at h
  next e => cases h; exact hat 0x018#12 e ▸ .faultCmd
  split at h
  next hfe =>
    have hoff := eq_feIndex_add_feByte hfe
    exact reaches_of_resolveFe32 hoff (by omega) h
  next => cases h

theorem reaches_of_resolve64 {off : BitVec 12} {r : Target} (h8 : off.toNat % 8 = 0)
    (h : resolve64 off.toNat = some r) : Reaches off 64 r := by
  unfold resolve64 at h
  split at h
  next hfe =>
    have hoff := eq_feIndex_add_feByte hfe
    obtain ⟨j, hj, rfl⟩ := limbAt_eq_some h
    have : off = limbOffset (feIndex off.toNat) j := BitVec.eq_of_toNat_eq (by rw [toNat_limbOffset]; omega)
    generalize feIndex off.toNat = i at this ⊢
    exact this ▸ .whole i j
  next => cases h

theorem reaches_of_resolve {off : BitVec 12} {width : Nat} {r : Target} (h : resolve off width = some r) :
    Reaches off width r := by
  unfold resolve at h
  split at h
  next h32 =>
    obtain ⟨rfl, h4⟩ := h32
    exact reaches_of_resolve32 h4 h
  split at h
  next h64 =>
    obtain ⟨rfl, h8⟩ := h64
    exact reaches_of_resolve64 h8 h
  next => cases h

/-- Settles O41: `resolve` decides the relation, whose constructors are the rows of the map. -/
theorem windowMap : Obligations.WindowMap := by
  refine ⟨fun i j => ?_, ⟨rfl, rfl, rfl, rfl, rfl, rfl⟩, fun off width r h => ?_⟩
  · have htag := toNat_tagOffset i
    exact ⟨toNat_limbOffset i j, by omega, resolve_limb_whole i j, resolve_limb_lo i j, resolve_limb_hi i j,
      resolve_tag i⟩
  · cases reaches_of_resolve h with
    | id => exact .inl ⟨rfl, .inl ⟨rfl, rfl⟩⟩
    | version => exact .inl ⟨rfl, .inr (.inl ⟨rfl, rfl⟩)⟩
    | param => exact .inl ⟨rfl, .inr (.inr (.inl ⟨rfl, rfl⟩))⟩
    | cmd => exact .inl ⟨rfl, .inr (.inr (.inr (.inl ⟨rfl, rfl⟩)))⟩
    | status => exact .inl ⟨rfl, .inr (.inr (.inr (.inr (.inl ⟨rfl, rfl⟩))))⟩
    | faultCmd => exact .inl ⟨rfl, .inr (.inr (.inr (.inr (.inr (.inl ⟨rfl, rfl⟩)))))⟩
    | tag i => exact .inl ⟨rfl, .inr (.inr (.inr (.inr (.inr (.inr (.inl ⟨i, rfl, rfl⟩))))))⟩
    | lo i j => exact .inl ⟨rfl, .inr (.inr (.inr (.inr (.inr (.inr (.inr (.inl ⟨i, j, rfl, rfl⟩)))))))⟩
    | hi i j => exact .inl ⟨rfl, .inr (.inr (.inr (.inr (.inr (.inr (.inr (.inr ⟨i, j, rfl, rfl⟩)))))))⟩
    | whole i j => exact .inr ⟨rfl, i, j, rfl, rfl⟩

end Sys2Proof.Machine
end

section
/-!
What a step does that serves a host access, by the register the access reaches (spec/20_memory.md R54 to R60): reads
and bad accesses change only the events to come and the responses.
-/

namespace Sys2Proof.Machine

/-! ### One step per kind of access -/

section access
variable {s : State} {off : BitVec 12} {width : Nat} {v : BitVec 64} {rest : List HostEvent} {r : Target}

theorem readTarget_setHost (s : State) (es : List HostEvent) (r : Target) :
    readTarget (s.setHost es) r = readTarget s r := by cases r <;> rfl

theorem step_read_of_resolve (h : HostMoves s (.read off width) rest) (hr : resolve off width = some r) :
    step s = .next ((s.setHost rest).respond (.data (readTarget s r))) := by
  rw [step_host h]
  simp only [hostStep, hr, readTarget_setHost]

theorem step_read_of_resolve_none (h : HostMoves s (.read off width) rest) (hr : resolve off width = none) :
    step s = .next ((s.setHost rest).respond .busError) := by
  rw [step_host h]
  simp only [hostStep, hr]

theorem step_write_of_resolve (h : HostMoves s (.write off width v) rest) (hr : resolve off width = some r) :
    step s = writeTarget (s.setHost rest) v r := by
  rw [step_host h]
  simp only [hostStep, hr]

theorem step_write_of_resolve_none (h : HostMoves s (.write off width v) rest) (hr : resolve off width = none) :
    step s = .next ((s.setHost rest).respond .busError) := by
  rw [step_host h]
  simp only [hostStep, hr]

end access

/-- Settles O43. -/
theorem readsHaveNoSideEffects : Obligations.ReadsHaveNoSideEffects := by
  intro s off width rest h
  cases hr : resolve off width with
  | none => exact ⟨.busError, step_read_of_resolve_none h hr, by simp⟩
  | some r => exact ⟨.data (readTarget s r), step_read_of_resolve h hr, by simp⟩

/-! ### Bad accesses -/

/-- An access to a reserved offset (R54), of a width that no register there takes (R55), or misaligned (R56). -/
def BadAccess (off : BitVec 12) (width : Nat) : Prop :=
  (0x00C ≤ off.toNat ∧ off.toNat < 0x010) ∨ (0x01C ≤ off.toNat ∧ off.toNat < 0x100) ∨
    (0x100 ≤ off.toNat ∧ off.toNat < 0x500 ∧ 0x2C ≤ off.toNat % 0x40) ∨ 0x500 ≤ off.toNat ∨
    (width = 32 ∧ off.toNat % 4 ≠ 0) ∨ (width = 64 ∧ off.toNat % 8 ≠ 0) ∨ (width ≠ 32 ∧ width ≠ 64) ∨
    (width = 64 ∧ off.toNat < 0x100) ∨ (width = 64 ∧ off.toNat % 0x40 = 0x28)

/-- No access of the map is a bad one. -/
theorem Reaches.not_badAccess {off : BitVec 12} {width : Nat} {r : Target} (h : Reaches off width r) :
    ¬ BadAccess off width := by
  unfold BadAccess
  cases h with
  | id => decide
  | version => decide
  | param => decide
  | cmd => decide
  | status => decide
  | faultCmd => decide
  | tag i => rw [toNat_tagOffset]; omega
  | lo i j => rw [toNat_limbOffset]; omega
  | hi i j => rw [toNat_limbOffset_add_four]; omega
  | whole i j => rw [toNat_limbOffset]; omega

theorem BadAccess.resolve_eq_none {off : BitVec 12} {width : Nat} (h : BadAccess off width) :
    resolve off width = none := by
  cases hr : resolve off width with
  | none => rfl
  | some r => exact absurd h (reaches_of_resolve hr).not_badAccess

/-- Settles O42. -/
theorem badAccessesEndInBusError : Obligations.BadAccessesEndInBusError := by
  intro s off width v rest hbad hm
  have hr : resolve off width = none := BadAccess.resolve_eq_none hbad
  obtain hm | hm := hm
  · exact step_read_of_resolve_none hm hr
  · exact step_write_of_resolve_none hm hr

/-! ### Read-only registers -/

/-- The five registers the host may read while a command is in flight, which are those it cannot write (R59, R65). -/
def StatusOffset (off : BitVec 12) : Prop :=
  off = 0x000#12 ∨ off = 0x004#12 ∨ off = 0x008#12 ∨ off = 0x014#12 ∨ off = 0x018#12

theorem StatusOffset.resolve_eq {off : BitVec 12} (h : StatusOffset off) :
    ∃ r, resolve off 32 = some r ∧ readsWhileBusy r = true := by
  obtain rfl | rfl | rfl | rfl | rfl := h
  · exact ⟨.id, rfl, rfl⟩
  · exact ⟨.version, rfl, rfl⟩
  · exact ⟨.param, rfl, rfl⟩
  · exact ⟨.status, rfl, rfl⟩
  · exact ⟨.faultCmd, rfl, rfl⟩

/-- A register that can be read while busy is reached at one of the five offsets only. -/
theorem Reaches.statusOffset {off : BitVec 12} {width : Nat} {r : Target} (h : Reaches off width r)
    (hb : readsWhileBusy r = true) : StatusOffset off := by
  cases h with
  | id => exact .inl rfl
  | version => exact .inr (.inl rfl)
  | param => exact .inr (.inr (.inl rfl))
  | status => exact .inr (.inr (.inr (.inl rfl)))
  | faultCmd => exact .inr (.inr (.inr (.inr rfl)))
  | cmd | tag | lo | hi | whole => cases hb

/-- A write to a register that can be read while busy is accepted and ignored (R59). -/
theorem writeTarget_of_readsWhileBusy {s : State} {r : Target} (h : readsWhileBusy r = true) (v : BitVec 64) :
    writeTarget s v r = .next (s.respond .accepted) := by
  cases r with
  | id => rfl
  | version => rfl
  | param => rfl
  | status => rfl
  | faultCmd => rfl
  | cmd | limb | tag => cases h

theorem toNat_tagMag (t : Word) : (tagMag t).toNat = t.toNat % 64 := by
  rw [tagMag, BitVec.extractLsb'_toNat, Nat.shiftRight_zero]

/-- The register a TAG write leaves depends on the requested magnitude and flag only. -/
theorem feReg_tagWrite_congr {s : State} {i : RegIx} {x y : Word} (hm : tagMag x = tagMag y)
    (hz : tagNorm x = tagNorm y) : (tagWrite s i x).feReg i = (tagWrite s i y).feReg i := by
  have hcheck : TagCheck (s.limbs i) x ↔ TagCheck (s.limbs i) y := by rw [tagCheck_iff, tagCheck_iff, hm, hz]
  obtain ⟨hx, ex⟩ | ⟨hx, ex⟩ := tagWrite_cases s i x <;> obtain ⟨hy, ey⟩ | ⟨hy, ey⟩ := tagWrite_cases s i y
  · rw [ex, ey, hm, hz]
  · exact absurd (hcheck.mp hx) hy
  · exact absurd (hcheck.mpr hy) hx
  · rw [ex, ey, State.feReg_raiseFault, State.feReg_raiseFault]

/-- Settles O46. -/
theorem readOnlyWritesAreIgnored : Obligations.ReadOnlyWritesAreIgnored := by
  refine ⟨fun s off v rest hoff hm => ?_, fun s rest hm => ?_, fun s i x y hmod hbit => ?_⟩
  · obtain ⟨r, hr, hb⟩ := StatusOffset.resolve_eq hoff
    rw [step_write_of_resolve hm hr, writeTarget_of_readsWhileBusy hb]
    rfl
  · exact step_read_of_resolve (r := .cmd) hm rfl
  · have hm : tagMag x = tagMag y := BitVec.eq_of_toNat_eq (by rw [toNat_tagMag, toNat_tagMag, hmod])
    exact feReg_tagWrite_congr hm hbit

end Sys2Proof.Machine
end

section
/-!
A command from its CMD write to its completion (spec/20_memory.md R64, R65, R70, R72): what the engine's step does, what
the host's step can be in full, and how the two take turns.
-/

namespace Sys2Proof.Machine

/-! ### The engine -/

theorem engineStep_of_command {w : Word} {i : Instr} (h : decode w = .command i) (s : State) :
    engineStep s w = exec i s := by
  simp only [engineStep, h]

/-- The two ways the engine's step ends: a register written, or a fault, and in both the command completed. -/
theorem engineStep_cases (s : State) (w : Word) :
    (∃ d n m z, engineStep s w = .next (s.writeFe d n m z).complete) ∨
      (∃ c f x, engineStep s w = .next (s.raiseFault c f x).complete) := by
  cases hd : decode w with
  | command i =>
    rw [engineStep_of_command hd]
    obtain ⟨n, m, z, h⟩ | ⟨c, f, -, h⟩ := exec_cases i s
    · exact .inl ⟨_, n, m, z, h⟩
    · exact .inr ⟨c, f, _, h⟩
  | illegal why => exact .inr ⟨.illegalCmd, 0#4, w, by simp only [engineStep, hd, commandFault]⟩

/-- The engine's step always completes the command, and does not touch what is outside the block (R64). -/
theorem engineStep_completes (s : State) (w : Word) :
    ∃ t, engineStep s w = .next t ∧ Idle t ∧ SameOutside s t := by
  obtain ⟨d, n, m, z, h⟩ | ⟨c, f, x, h⟩ := engineStep_cases s w
  · exact ⟨_, h, ⟨rfl, rfl⟩, ⟨rfl, rfl, rfl⟩⟩
  · exact ⟨_, h, ⟨rfl, rfl⟩, by simp [SameOutside]⟩

/-- Settles O5. -/
theorem stepRunsTheDecodedCommand : Obligations.StepRunsTheDecodedCommand := by
  intro s w i hw hd
  rw [step_engine hw, engineStep_of_command hd]

/-- The first event to come is marked as arriving later, so the engine moves next. -/
theorem engineMoves_placeCommand (s : State) (w : Word) : EngineMoves (placeCommand s w) w := by
  refine ⟨rfl, fun e rest h => ?_⟩
  change firstAfterCompletion s.host = e :: rest at h
  cases hh : s.host with
  | nil => rw [hh] at h; cases h
  | cons e' rest' => rw [hh] at h; cases h; rfl

/-- Settles O6. -/
theorem placedWordRunsNext : Obligations.PlacedWordRunsNext := by
  intro s w i hd
  have hw : BitVec.ofNat 32 (w.toNat % 2 ^ 32) = w := by rw [Nat.mod_eq_of_lt w.isLt, BitVec.ofNat_toNat]; simp
  rw [State.withFetchWord, hw]
  exact stepRunsTheDecodedCommand _ w i (engineMoves_placeCommand s w) hd

theorem cmdWrite_of_fault {s : State} (h : s.fault = true) (w : Word) : cmdWrite s w = s := if_pos h

theorem cmdWrite_of_no_fault {s : State} (h : s.fault = false) (w : Word) : cmdWrite s w = s.accept w := by
  simp [cmdWrite, h]

/-- Settles O8. -/
theorem cmdWriteIssuesAndCompletes : Obligations.CmdWriteIssuesAndCompletes := by
  refine ⟨fun s v rest hm => ?_, fun s w hw => ⟨fun i => stepRunsTheDecodedCommand s w i hw, ?_⟩⟩
  · have hstep : step s = .next ((cmdWrite (s.setHost rest) (loHalf v)).respond .accepted) :=
      step_write_of_resolve (r := .cmd) hm rfl
    refine ⟨fun hf => ?_, fun hf => ?_⟩
    · rw [hstep, cmdWrite_of_fault (s := s.setHost rest) hf]
      rfl
    · rw [hstep, cmdWrite_of_no_fault (s := s.setHost rest) hf]
      rfl
  · obtain ⟨t, ht, hidle, -⟩ := engineStep_completes s w
    exact ⟨t, (step_engine hw).trans ht, hidle⟩

/-! ### The host -/

/-- Everything a step can be that serves an event: the reset, a response alone, or a write that reaches a register,
which finds no command in flight (R65). -/
theorem step_host_cases {s : State} {a : HostAction} {rest : List HostEvent} (h : HostMoves s a rest) :
    (a = .reset ∧ step s = .next (s.setHost rest).platformReset) ∨
      (∃ r, step s = .next ((s.setHost rest).respond r)) ∨
      (∃ off width v r, a = .write off width v ∧ Reaches off width r ∧ s.inflight = none ∧
        step s = writeTarget (s.setHost rest) v r) := by
  rw [step_host h]
  obtain hreset | hrespond | ⟨off, width, v, r, rfl, hr, e⟩ := hostStep_cases (s.setHost rest) a
  · exact .inl hreset
  · exact .inr (.inl hrespond)
  · exact .inr (.inr ⟨off, width, v, r, rfl, reaches_of_resolve hr, inflight_eq_none_of_write h hr, e⟩)

/-- A TAG write that does not stop answers the state with the check's outcome (R62). -/
theorem eq_of_writeTarget_tag {s t : State} {v : BitVec 64} {i : RegIx} (h : writeTarget s v (.tag i) = .next t) :
    t = (tagWrite s i (loHalf v)).respond .accepted := by
  rw [writeTarget] at h
  cases ha : s.allWritten i <;> rw [ha] at h <;> cases h
  rfl

/-- Only a CMD write, with no fault recorded, changes INFLIGHT among the writes that reach a register. -/
theorem writeTarget_inflight {s t : State} {v : BitVec 64} {r : Target} (h : writeTarget s v r = .next t) :
    t.inflight = s.inflight ∨ (r = .cmd ∧ s.fault = false ∧ t.inflight = some (loHalf v)) := by
  cases r with
  | id | version | param | status | faultCmd => cases h; exact .inl rfl
  | cmd =>
    cases h
    cases hf : s.fault
    · exact .inr ⟨rfl, rfl, by rw [cmdWrite_of_no_fault hf]; rfl⟩
    · exact .inl (by rw [cmdWrite_of_fault hf]; rfl)
  | limb i j part => cases h; cases part <;> exact .inl rfl
  | tag i =>
    obtain rfl := eq_of_writeTarget_tag h
    exact .inl (tagWrite_flight s i _).1

theorem Reaches.cmd_iff {off : BitVec 12} {width : Nat} : Reaches off width .cmd ↔ off = 0x010#12 ∧ width = 32 := by
  constructor
  · intro h
    cases h
    exact ⟨rfl, rfl⟩
  · rintro ⟨rfl, rfl⟩
    exact .cmd

theorem Reaches.tag_iff {off : BitVec 12} {width : Nat} {i : RegIx} :
    Reaches off width (.tag i) ↔ off = tagOffset i ∧ width = 32 := by
  constructor
  · intro h
    cases h
    exact ⟨rfl, rfl⟩
  · rintro ⟨rfl, rfl⟩
    exact .tag i

/-- A word in flight is left or completed by every step: writes that reach a register are held (R65, R70). -/
theorem step_keeps_or_empties_inflight {s t : State} {w : Word} (hi : s.inflight = some w) (h : step s = .next t) :
    t.inflight = some w ∨ t.inflight = none := by
  obtain ⟨x, hx⟩ | ⟨a, rest, hm⟩ | ⟨hnone, -⟩ := moves_cases s
  · obtain ⟨u, hu, hidle, -⟩ := engineStep_completes s x
    rw [step_engine hx, hu] at h
    cases h
    exact .inr hidle.1
  · obtain ⟨-, e⟩ | ⟨r, e⟩ | ⟨-, -, -, -, -, -, hnone, -⟩ := step_host_cases hm
    · rw [e] at h; cases h
      exact .inr rfl
    · rw [e] at h; cases h
      exact .inl hi
    · simp [hi] at hnone
  · simp [hi] at hnone

/-- A word comes into flight only by a CMD write of it, with no fault recorded (R64, R70). -/
theorem step_fills_inflight {s t : State} {w : Word} (hi : s.inflight = none) (h : step s = .next t)
    (ht : t.inflight = some w) :
    ∃ v rest, HostMoves s (.write 0x010#12 32 v) rest ∧ w = loHalf v ∧ s.fault = false := by
  obtain ⟨x, hx, -⟩ | ⟨a, rest, hm⟩ | ⟨-, hh⟩ := moves_cases s
  · simp [hi] at hx
  · obtain ⟨-, e⟩ | ⟨r, e⟩ | ⟨off, width, v, r, rfl, hr, -, e⟩ := step_host_cases hm <;> rw [e] at h
    · cases h
      cases ht
    · cases h
      simp [hi] at ht
    · obtain hsame | ⟨rfl, hf, hw⟩ := writeTarget_inflight h
      · simp [ht, hi] at hsame
      · obtain ⟨rfl, rfl⟩ := Reaches.cmd_iff.mp hr
        exact ⟨v, rest, hm, Option.some.inj (ht.symm.trans hw), hf⟩
  · rw [step_idle hi hh] at h
    cases h
    simp [hi] at ht

/-- Settles O10. -/
theorem acceptedCommandNeverChanges : Obligations.AcceptedCommandNeverChanges :=
  ⟨fun _ _ _ => step_fills_inflight, fun _ _ _ => step_keeps_or_empties_inflight⟩

/-- Settles O11: of all moves only a write that reaches a TAG can stop. -/
theorem stopsOnlyOnUnwrittenTagWrite : Obligations.StopsOnlyOnUnwrittenTagWrite := by
  intro s
  suffices h : (∃ t, step s = .next t) ∨ ∃ i v rest, step s = .fault (.unwrittenLimbs i) ∧
      HostMoves s (.write (tagOffset i) 32 v) rest ∧ s.allWritten i = false by
    obtain ⟨t, e⟩ | ⟨i, v, rest, e, hm, hw⟩ := h <;> rw [e]
    · exact ⟨nofun, nofun⟩
    · exact ⟨nofun, fun f hf => by cases hf; exact ⟨i, v, rest, rfl, hm, hw⟩⟩
  obtain ⟨x, hx⟩ | ⟨a, rest, hm⟩ | ⟨hi, hh⟩ := moves_cases s
  · obtain ⟨t, ht, -⟩ := engineStep_completes s x
    exact .inl ⟨t, (step_engine hx).trans ht⟩
  · obtain ⟨-, e⟩ | ⟨r, e⟩ | ⟨off, width, v, r, rfl, hr, -, e⟩ := step_host_cases hm
    · exact .inl ⟨_, e⟩
    · exact .inl ⟨_, e⟩
    · obtain ⟨t, e', -⟩ | ⟨i, rfl, hw, e'⟩ := writeTarget_cases (s.setHost rest) v r
      · exact .inl ⟨t, e.trans e'⟩
      · obtain ⟨rfl, rfl⟩ := Reaches.tag_iff.mp hr
        exact .inr ⟨i, v, rest, e.trans e', hm, hw⟩
  · exact .inl ⟨s, step_idle hi hh⟩

/-! ### The wait for the completion -/

theorem run_succ_of_step {M : Host.Core} {s t : M.State} (h : M.step s = .next t) (k : Nat) :
    M.run (k + 1) s = M.run k t := by
  simp only [Host.Core.run, h]

/-- The next step empties INFLIGHT: it is the engine's completion of `w`, or the reset. -/
def NextStepEnds (t : State) (w : Word) : Prop :=
  ∃ u, step t = .next u ∧ Idle u ∧ ((EngineMoves t w ∧ engineStep t w = .next u) ∨ ∃ rest, HostMoves t .reset rest)

/-- With a command in flight the next step ends it, or serves an event that leaves the command as it is. -/
theorem inflight_progress {s : State} {w : Word} (hi : s.inflight = some w) :
    NextStepEnds s w ∨ ∃ e rest r, s.host = e :: rest ∧ step s = .next ((s.setHost rest).respond r) := by
  obtain ⟨x, hx⟩ | ⟨a, rest, hm⟩ | ⟨hnone, -⟩ := moves_cases s
  · obtain rfl : x = w := Option.some.inj (hx.1.symm.trans hi)
    obtain ⟨u, hu, hidle, -⟩ := engineStep_completes s x
    exact .inl ⟨u, (step_engine hx).trans hu, hidle, .inl ⟨hx, hu⟩⟩
  · obtain ⟨rfl, e⟩ | ⟨r, e⟩ | ⟨-, -, -, -, -, -, hnone, -⟩ := step_host_cases hm
    · exact .inl ⟨_, e, ⟨rfl, rfl⟩, .inr ⟨rest, hm⟩⟩
    · obtain ⟨ev, hh, -⟩ := hm
      exact .inr ⟨ev, rest, r, hh, e⟩
    · simp [hi] at hnone
  · simp [hi] at hnone

/-- Induction on the events to come: each step that does not end the command uses one up. -/
theorem inflight_ends (es : List HostEvent) : ∀ {s : State} {w : Word}, s.host = es → s.inflight = some w →
    ∃ k t, k ≤ es.length ∧ Host.Core.run Sys2Proof.core k s = .next t ∧ t.inflight = some w ∧ t.fe = s.fe ∧
      SameFaultRegs s t ∧ NextStepEnds t w := by
  induction es with
  | nil =>
    intro s w hh hi
    obtain hend | ⟨e, rest, r, hcons, -⟩ := inflight_progress hi
    · exact ⟨0, s, Nat.le_refl 0, rfl, hi, rfl, ⟨rfl, rfl, rfl, rfl⟩, hend⟩
    · cases hh.symm.trans hcons
  | cons e es ih =>
    intro s w hh hi
    obtain hend | ⟨e', rest, r, hcons, hstep⟩ := inflight_progress hi
    · exact ⟨0, s, Nat.zero_le _, rfl, hi, rfl, ⟨rfl, rfl, rfl, rfl⟩, hend⟩
    · cases hh.symm.trans hcons
      obtain ⟨k, t, hk, hrun, hw, hfe, hregs, hend⟩ := ih (s := (s.setHost es).respond r) rfl hi
      have hrun' := (run_succ_of_step (M := Sys2Proof.core) hstep k).trans hrun
      exact ⟨k + 1, t, Nat.succ_le_succ hk, hrun', hw, hfe, hregs, hend⟩

/-- Settles O9. -/
theorem acceptedCommandCompletes : Obligations.AcceptedCommandCompletes := by
  intro s w hi
  obtain ⟨k, t, hk, hrun, hw, hfe, hregs, u, hstep, hidle, hend⟩ := inflight_ends s.host rfl hi
  exact ⟨k, t, u, hk, hrun, hw, hfe, hregs, hstep, hidle, hend⟩

/-! ### Held accesses -/

section busy
variable {s : State} {w : Word} {a : HostAction} {rest : List HostEvent} (hi : s.inflight = some w)
  (hh : s.host = { arrival := .whileBusy, action := a } :: rest)
include hh

/-- An access that is not held is served at once. -/
theorem hostMoves_of_notHeld (hn : notHeld a = true) : HostMoves s a rest :=
  ⟨_, hh, rfl, .inr hn⟩

include hi

/-- An access that is held waits for the completion, which leaves it the next event. -/
theorem step_completes_of_held (hn : notHeld a = false) :
    ∃ t, step s = .next t ∧ Idle t ∧ t.host = s.host ∧ t.responses = s.responses := by
  have hw : EngineMoves s w := ⟨hi, fun e rest' h => by cases hh.symm.trans h; exact hn⟩
  obtain ⟨t, ht, hidle, -, hhost, hresp⟩ := engineStep_completes s w
  exact ⟨t, (step_engine hw).trans ht, hidle, hhost, hresp⟩

end busy

/-- A read that reaches a register is held unless it is at one of the five offsets. -/
theorem notHeld_read_eq_false {off : BitVec 12} {width : Nat} (hr : (resolve off width).isSome = true)
    (hoff : ¬ StatusOffset off) : notHeld (.read off width) = false := by
  obtain ⟨r, hr⟩ := Option.isSome_iff_exists.mp hr
  have hb : readsWhileBusy r = false :=
    eq_false_of_ne_true fun hb => hoff ((reaches_of_resolve hr).statusOffset hb)
  simp only [notHeld, hr, hb]

/-- Settles O49. -/
theorem accessesAreHeldWhileBusy : Obligations.AccessesAreHeldWhileBusy := by
  intro s w a rest hi hh
  refine ⟨?_, ?_, ?_⟩
  · rintro off hoff rfl
    obtain ⟨r, hr, hb⟩ := StatusOffset.resolve_eq hoff
    exact ⟨readTarget s r, step_read_of_resolve (hostMoves_of_notHeld hh (by simp only [notHeld, hr, hb])) hr⟩
  · rintro off width v (rfl | rfl) hr
    · exact step_read_of_resolve_none (hostMoves_of_notHeld hh (by simp only [notHeld, hr])) hr
    · exact step_write_of_resolve_none (hostMoves_of_notHeld hh (by simp only [notHeld, hr, Option.isNone])) hr
  · rintro off width v (⟨rfl, hr⟩ | ⟨rfl, hr, hoff⟩)
    · exact step_completes_of_held hi hh (by simpa [notHeld] using hr)
    · exact step_completes_of_held hi hh (notHeld_read_eq_false hr hoff)

end Sys2Proof.Machine
end

section
/-!
Limb writes and TAG writes (spec/20_memory.md R61 to R63): what each leaves in the register it addresses and what it
leaves alone, and which halves of the limbs are written since reset.
-/

namespace Sys2Proof.Machine

/-! ### Limb writes -/

/-- A limb after a write of the given part of it. -/
def LimbCell.writePart (c : LimbCell) (v : BitVec 64) : Part → LimbCell
  | .whole => .ofLimb v
  | .lo => c.withLo (loHalf v)
  | .hi => c.withHi (loHalf v)

theorem limbWrite_eq_writeCell (s : State) (i : RegIx) (j : Fin 5) (v : BitVec 64) (part : Part) :
    limbWrite s i j v part = s.writeCell i j ((s.feReg i).n[j].writePart v part) := by
  cases part <;> rfl

section writeCell
variable (s : State) (i : RegIx) (j : Fin 5) (c : LimbCell)

theorem State.cell_writeCell_same : ((s.writeCell i j c).feReg i).n[j] = c := by
  simp [State.writeCell]

theorem State.cell_writeCell_other {l : Fin 5} (h : l ≠ j) :
    ((s.writeCell i j c).feReg i).n[l] = (s.feReg i).n[l] := by
  have hn : j.val ≠ l.val := fun e => h (Fin.ext e.symm)
  simp [State.writeCell, hn]

/-- The frame of a write of limb n_j of FE[i] (R61). -/
theorem writeCell_frame :
    TagCleared (s.writeCell i j c) i ∧
      (∀ l, l ≠ j → (s.writeCell i j c).limb i l = s.limb i l ∧
        ((s.writeCell i j c).feReg i).n[l] = (s.feReg i).n[l]) ∧
      (∀ k, k ≠ i → SameReg s (s.writeCell i j c) k ∧ SameTag s (s.writeCell i j c) k) ∧
      SameFaultRegs s (s.writeCell i j c) := by
  refine ⟨by simp [TagCleared], fun l hl => ?_, fun k hk => ?_, ⟨rfl, rfl, rfl, rfl⟩⟩
  · exact ⟨s.limb_writeCell_other i j c l hl, s.cell_writeCell_other i j c hl⟩
  · have hreg := s.feReg_writeCell_other i k j c hk
    exact ⟨sameReg_of_feReg hreg rfl, sameTag_of_feReg hreg⟩

end writeCell

/-- A write that reaches a part of a limb answers the state with that part written. -/
theorem step_limbWrite {s : State} {off : BitVec 12} {width : Nat} {v : BitVec 64} {rest : List HostEvent} {i : RegIx}
    {j : Fin 5} {part : Part} (h : HostMoves s (.write off width v) rest)
    (hr : resolve off width = some (.limb i j part)) :
    step s = .next
      (((s.setHost rest).writeCell i j ((s.feReg i).n[j].writePart v part)).respond .accepted) := by
  rw [step_write_of_resolve h hr, writeTarget, limbWrite_eq_writeCell]
  rfl

/-- The offset and width of an access to a limb name the part it covers (R55). -/
theorem limb_access_part {i : RegIx} {j : Fin 5} {off : BitVec 12} {width : Nat}
    (h : (off = limbOffset i j ∧ (width = 64 ∨ width = 32)) ∨ (off = limbOffset i j + 4#12 ∧ width = 32)) :
    ∃ part, resolve off width = some (.limb i j part) ∧
      (width = 64 → part = .whole) ∧ (width = 32 → off = limbOffset i j → part = .lo) ∧
      (off = limbOffset i j + 4#12 → part = .hi) := by
  have hne : limbOffset i j ≠ limbOffset i j + 4#12 := fun e => by
    have := congrArg BitVec.toNat e
    rw [toNat_limbOffset_add_four, toNat_limbOffset] at this
    omega
  obtain ⟨rfl, rfl | rfl⟩ | ⟨rfl, rfl⟩ := h
  · exact ⟨.whole, resolve_limb_whole i j, by simp, by simp, fun e => absurd e hne⟩
  · exact ⟨.lo, resolve_limb_lo i j, by simp, by simp, fun e => absurd e hne⟩
  · exact ⟨.hi, resolve_limb_hi i j, by simp, fun _ e => absurd e.symm hne, by simp⟩

/-- Settles O47. -/
theorem limbWriteClearsTag : Obligations.LimbWriteClearsTag := by
  intro s i j off width v rest haccess hm
  obtain ⟨part, hr, hwhole, hlo, hhi⟩ := limb_access_part haccess
  obtain ⟨htag, hlimbs, hregs, hfault⟩ := writeCell_frame (s.setHost rest) i j ((s.feReg i).n[j].writePart v part)
  have hcell := (s.setHost rest).cell_writeCell_same i j ((s.feReg i).n[j].writePart v part)
  have hlimb := (s.setHost rest).limb_writeCell_same i j ((s.feReg i).n[j].writePart v part)
  refine ⟨_, step_limbWrite hm hr, fun hw => ?_, fun hw ho => ?_, fun ho => ?_, rfl, htag, hlimbs, hregs, hfault,
    rfl, rfl⟩ <;> rw [State.limb_respond, State.feReg_respond, hlimb, hcell]
  · rw [hwhole hw]
    exact ⟨LimbCell.read_ofLimb v _, rfl⟩
  · rw [hlo hw ho, LimbCell.writePart, LimbCell.read_withLo, loHalf_joinHalves, hiHalf_joinHalves]
    exact ⟨rfl, rfl, rfl, rfl⟩
  · rw [hhi ho, LimbCell.writePart, LimbCell.read_withHi, loHalf_joinHalves, hiHalf_joinHalves]
    exact ⟨rfl, rfl, rfl, rfl⟩

/-! ### TAG writes -/

theorem toNat_tagMag_loHalf (v : BitVec 64) : (tagMag (loHalf v)).toNat = v.toNat % 64 := by
  rw [toNat_tagMag, toNat_loHalf]; omega

theorem tagNorm_loHalf (v : BitVec 64) : tagNorm (loHalf v) = v.getLsbD 8 := by
  simp [tagNorm, loHalf]

/-- A TAG write leaves the limbs, the other registers and their tags (R62). -/
theorem tagWrite_frame (s : State) (i : RegIx) (t : Word) :
    (tagWrite s i t).limbs i = s.limbs i ∧
      ∀ k, k ≠ i → SameReg s (tagWrite s i t) k ∧ SameTag s (tagWrite s i t) k := by
  obtain ⟨-, e⟩ | ⟨-, e⟩ := tagWrite_cases s i t <;> rw [e]
  · refine ⟨s.limbs_setTag i _ _, fun k hk => ?_⟩
    have hreg := s.feReg_setTag_other i k (tagMag t) (tagNorm t) hk
    exact ⟨sameReg_of_feReg hreg rfl, sameTag_of_feReg hreg⟩
  · refine ⟨by simp, fun k hk => ?_⟩
    have hreg : ((s.clearTag i).raiseFault .tagInvalid i t).feReg k = s.feReg k := by
      rw [State.feReg_raiseFault, s.feReg_clearTag_other i k hk]
    exact ⟨sameReg_of_feReg hreg (by simp), sameTag_of_feReg hreg⟩

/-- What a fault leaves in the fault registers: itself if it is the first, else what stood there (R203). -/
theorem raiseFault_records (s : State) (c : Cause) (f : RegIx) (w : Word) :
    (s.fault = false → Recorded (s.raiseFault c f w) c f w) ∧
      (s.fault = true → SameFaultRegs s (s.raiseFault c f w)) := by
  obtain ⟨hf, e⟩ | ⟨hf, e⟩ := s.raiseFault_cases c f w <;> rw [e, hf]
  · exact ⟨nofun, fun _ => ⟨rfl, rfl, rfl, rfl⟩⟩
  · exact ⟨fun _ => ⟨rfl, rfl, rfl, rfl⟩, nofun⟩

/-- Settles O48. -/
theorem tagWriteChecks : Obligations.TagWriteChecks := by
  intro s i v m z rest hm hmag hnorm
  have hstep := step_write_of_resolve hm (resolve_tag i)
  rw [writeTarget] at hstep
  obtain ⟨hlimbs, hregs⟩ := tagWrite_frame (s.setHost rest) i (loHalf v)
  have hcheck : (1 ≤ m ∧ m ≤ 32 ∧ HasMagnitude m (s.limbs i) ∧ (z = true → m = 1 ∧ Canonical (s.limbs i))) ↔
      TagCheck (s.limbs i) (loHalf v) := by
    rw [hmag, hnorm, ← toNat_tagMag_loHalf, ← tagNorm_loHalf]
    rfl
  rw [hcheck]
  refine ⟨fun ha => ?_, fun ha => ⟨(tagWrite (s.setHost rest) i (loHalf v)).respond .accepted, ?_, hlimbs, hregs, ?_⟩⟩
  · rw [hstep, State.allWritten_setHost, ha]
    rfl
  · rw [hstep, State.allWritten_setHost, ha]
    rfl
  · obtain ⟨hc, e⟩ | ⟨hc, e⟩ := tagWrite_cases (s.setHost rest) i (loHalf v) <;> rw [e]
    · refine ⟨fun _ => ?_, fun hn => absurd hc hn⟩
      simp [SameFaultRegs, toNat_tagMag_loHalf, tagNorm_loHalf, hmag, hnorm]
    · refine ⟨fun hp => absurd hp hc, fun _ => ⟨by simp [TagCleared], ?_⟩⟩
      exact raiseFault_records ((s.setHost rest).clearTag i) .tagInvalid i (loHalf v)

/-! ### Unwritten halves -/

/-- Every half of a limb written since reset in `s` is written in `t`. -/
def KeepsWritten (s t : State) : Prop :=
  ∀ (i : RegIx) (j : Fin 5),
    ((s.feReg i).n[j].loWritten = true → (t.feReg i).n[j].loWritten = true) ∧
      ((s.feReg i).n[j].hiWritten = true → (t.feReg i).n[j].hiWritten = true)

theorem keepsWritten_of_cells {s t : State} (h : ∀ i, (t.feReg i).n = (s.feReg i).n) : KeepsWritten s t := by
  intro i j
  rw [h]
  exact ⟨id, id⟩

/-- A command writes both halves of every limb. -/
theorem cellsOf_written (n : Limbs) (j : Fin 5) :
    (cellsOf n)[j].loWritten = true ∧ (cellsOf n)[j].hiWritten = true := by
  match j with
  | 0 => exact ⟨rfl, rfl⟩
  | 1 => exact ⟨rfl, rfl⟩
  | 2 => exact ⟨rfl, rfl⟩
  | 3 => exact ⟨rfl, rfl⟩
  | 4 => exact ⟨rfl, rfl⟩

theorem keepsWritten_writeFe (s : State) (d : RegIx) (n : Limbs) (m : BitVec 6) (z : Bool) :
    KeepsWritten s (s.writeFe d n m z) := by
  intro i j
  by_cases hi : i = d
  · subst hi
    rw [State.writeFe, State.feReg_setFeReg_same]
    obtain ⟨hlo, hhi⟩ := cellsOf_written n j
    exact ⟨fun _ => hlo, fun _ => hhi⟩
  · rw [s.feReg_writeFe_other d i n m z hi]
    exact ⟨id, id⟩

theorem writePart_keeps_written (c : LimbCell) (v : BitVec 64) (part : Part) :
    (c.loWritten = true → (c.writePart v part).loWritten = true) ∧
      (c.hiWritten = true → (c.writePart v part).hiWritten = true) := by
  cases part with
  | whole => exact ⟨fun _ => rfl, fun _ => rfl⟩
  | lo => exact ⟨fun _ => rfl, id⟩
  | hi => exact ⟨id, fun _ => rfl⟩

theorem keepsWritten_limbWrite (s : State) (d : RegIx) (l : Fin 5) (v : BitVec 64) (part : Part) :
    KeepsWritten s (limbWrite s d l v part) := by
  intro i j
  rw [limbWrite_eq_writeCell]
  by_cases hi : i = d
  · subst hi
    by_cases hj : j = l
    · subst hj
      rw [State.cell_writeCell_same]
      exact writePart_keeps_written _ v part
    · rw [State.cell_writeCell_other s i l _ hj]
      exact ⟨id, id⟩
  · rw [s.feReg_writeCell_other d i l _ hi]
    exact ⟨id, id⟩

/-- A TAG write replaces no limb. -/
theorem cells_tagWrite (s : State) (d : RegIx) (t : Word) (i : RegIx) :
    ((tagWrite s d t).feReg i).n = (s.feReg i).n := by
  by_cases hi : i = d
  · subst hi
    obtain ⟨-, e⟩ | ⟨-, e⟩ := tagWrite_cases s i t <;> rw [e]
    · simp [State.setTag]
    · simp [State.clearTag]
  · rw [((tagWrite_frame s d t).2 i hi).1.1]

theorem keepsWritten_writeTarget {s t : State} {v : BitVec 64} {r : Target} (h : writeTarget s v r = .next t) :
    KeepsWritten s t := by
  cases r with
  | id | version | param | status | faultCmd => cases h; exact keepsWritten_of_cells fun _ => rfl
  | cmd =>
    cases h
    refine keepsWritten_of_cells fun i => ?_
    cases hf : s.fault
    · rw [cmdWrite_of_no_fault hf]; rfl
    · rw [cmdWrite_of_fault hf]; rfl
  | limb i j part => cases h; exact keepsWritten_limbWrite s i j v part
  | tag i =>
    obtain rfl := eq_of_writeTarget_tag h
    exact keepsWritten_of_cells (cells_tagWrite s i (loHalf v))

/-- Only a reset, which counts up the epoch, makes a written half unwritten. -/
theorem step_keepsWritten {s t : State} (h : step s = .next t) (he : t.epoch = s.epoch) : KeepsWritten s t := by
  obtain ⟨w, hw⟩ | ⟨a, rest, hm⟩ | ⟨hi, hh⟩ := moves_cases s
  · rw [step_engine hw] at h
    obtain ⟨d, n, m, z, e⟩ | ⟨c, f, x, e⟩ := engineStep_cases s w <;> rw [e] at h <;> cases h
    · exact keepsWritten_writeFe s d n m z
    · exact keepsWritten_of_cells fun i => by rw [State.feReg_complete, State.feReg_raiseFault]
  · obtain ⟨-, e⟩ | ⟨r, e⟩ | ⟨off, width, v, r, -, -, -, e⟩ := step_host_cases hm <;> rw [e] at h
    · cases h
      exact absurd he (Nat.succ_ne_self _)
    · cases h
      exact keepsWritten_of_cells fun _ => rfl
    · exact keepsWritten_writeTarget (s := s.setHost rest) h
  · rw [step_idle hi hh] at h
    cases h
    exact keepsWritten_of_cells fun _ => rfl

/-- A half not written since reset is read from the free value (R63). -/
theorem loHalf_limb_of_unwritten {s : State} {i : RegIx} {j : Fin 5} (h : (s.feReg i).n[j].loWritten = false) :
    loHalf (s.limb i j) = loHalf (Config.unwrittenLimb s.epoch i j) := by
  rw [State.limb, LimbCell.read, loHalf_joinHalves, h, if_neg Bool.false_ne_true]

theorem hiHalf_limb_of_unwritten {s : State} {i : RegIx} {j : Fin 5} (h : (s.feReg i).n[j].hiWritten = false) :
    hiHalf (s.limb i j) = hiHalf (Config.unwrittenLimb s.epoch i j) := by
  rw [State.limb, LimbCell.read, hiHalf_joinHalves, h, if_neg Bool.false_ne_true]

/-- Settles O40: a half unwritten after the step was unwritten before it, so both reads are of one free value. -/
theorem unwrittenHalvesReadFree : Obligations.UnwrittenHalvesReadFree := by
  refine ⟨fun s i j => ⟨loHalf_limb_of_unwritten, hiHalf_limb_of_unwritten⟩, fun s t i j h he => ?_⟩
  obtain ⟨hlo, hhi⟩ := step_keepsWritten h he i j
  refine ⟨fun ht => ?_, fun ht => ?_⟩
  · have hs : (s.feReg i).n[j].loWritten = false :=
      eq_false_of_ne_true fun e => Bool.false_ne_true (ht.symm.trans (hlo e))
    rw [loHalf_limb_of_unwritten ht, loHalf_limb_of_unwritten hs, he]
  · have hs : (s.feReg i).n[j].hiWritten = false :=
      eq_false_of_ne_true fun e => Bool.false_ne_true (ht.symm.trans (hhi e))
    rw [hiHalf_limb_of_unwritten ht, hiHalf_limb_of_unwritten hs, he]

end Sys2Proof.Machine
end

section
/-!
The window byte by byte (spec/20_memory.md R50, R52, R57): every byte of an access is the byte of the value read, a
limb write is read back byte by byte, and a command changes the bytes of FE[RD], STATUS and FAULT_CMD at most.
-/

namespace Sys2Proof.Machine

/-! ### Bytes of a number -/

theorem laneByte_eq (v : BitVec 64) (k : Nat) : laneByte v k = BitVec.ofNat 8 (v.toNat / 2 ^ (8 * k)) := by
  rw [laneByte, BitVec.extractLsb', Nat.shiftRight_eq_div_pow]

/-- A byte inside the low `w` bits is a byte of the number cut to `w` bits. -/
theorem byte_mod_two_pow (n : Nat) {k w : Nat} (h : 8 * k + 8 ≤ w) :
    BitVec.ofNat 8 (n % 2 ^ w / 2 ^ (8 * k)) = BitVec.ofNat 8 (n / 2 ^ (8 * k)) := by
  obtain ⟨d, rfl⟩ := Nat.exists_eq_add_of_le h
  apply BitVec.eq_of_toNat_eq
  rw [BitVec.toNat_ofNat, BitVec.toNat_ofNat, Nat.add_assoc, Nat.pow_add, Nat.mod_mul_right_div_self, Nat.pow_add,
    Nat.mod_mul_right_mod]

/-- Byte `k` of the number above bit 32 is byte `k + 4`. -/
theorem div_two_pow_32_byte (n k : Nat) : n / 2 ^ 32 / 2 ^ (8 * k) = n / 2 ^ (8 * (k + 4)) := by
  rw [Nat.div_div_eq_div_mul, ← Nat.pow_add, show 32 + 8 * k = 8 * (k + 4) by omega]

/-! ### Bytes of the window -/

/-- The 32-bit word that holds an offset. -/
theorem toNat_and_wordMask (off : BitVec 12) : (off &&& 0xFFC#12).toNat = off.toNat / 4 * 4 := by
  have hmask : off &&& 0xFFC#12 = off >>> 2 <<< 2 := (BitVec.shiftLeft_ushiftRight (x := off) (n := 2)).symm
  have hlt := off.isLt
  rw [hmask, BitVec.toNat_shiftLeft, BitVec.toNat_ushiftRight, Nat.shiftRight_eq_div_pow, Nat.shiftLeft_eq]
  omega

/-- A byte of a word is read through the word's access. -/
theorem windowByte_of_resolve {s : State} {off word : BitVec 12} {r : Target} {k : Nat}
    (hr : resolve word 32 = some r) (hk : k < 4) (h4 : word.toNat % 4 = 0) (hoff : off.toNat = word.toNat + k) :
    windowByte s off = some (BitVec.ofNat 8 ((readTarget s r).toNat / 2 ^ (8 * k))) := by
  have hword : off &&& 0xFFC#12 = word := BitVec.eq_of_toNat_eq (by rw [toNat_and_wordMask]; omega)
  have hlane : off.toNat % 4 = k := by omega
  simp only [windowByte, hword, hr, hlane, laneByte_eq]

theorem Reaches.width_eq {off : BitVec 12} {width : Nat} {r : Target} (h : Reaches off width r) :
    width = 32 ∨ width = 64 := by
  cases h with
  | id | version | param | cmd | status | faultCmd | tag | lo | hi => exact .inl rfl
  | whole => exact .inr rfl

/-- An access is aligned and ends inside the window. -/
theorem Reaches.aligned {off : BitVec 12} {width : Nat} {r : Target} (h : Reaches off width r) :
    off.toNat % 4 = 0 ∧ off.toNat + 8 ≤ 0x500 := by
  cases h with
  | id | version | param | cmd | status | faultCmd => decide
  | tag i => rw [toNat_tagOffset]; omega
  | lo i j => rw [toNat_limbOffset]; omega
  | hi i j => rw [toNat_limbOffset_add_four]; omega
  | whole i j => rw [toNat_limbOffset]; omega

theorem toNat_add_byte {off : BitVec 12} {k : Nat} (hoff : off.toNat + 8 ≤ 0x500) (hk : k < 8) :
    (off + BitVec.ofNat 12 k).toNat = off.toNat + k := by
  rw [BitVec.toNat_add, BitVec.toNat_ofNat]; omega

theorem windowByte_of_width32 {s : State} {off : BitVec 12} {r : Target} {k : Nat} (h : Reaches off 32 r)
    (hk : k < 4) :
    windowByte s (off + BitVec.ofNat 12 k) = some (BitVec.ofNat 8 ((readTarget s r).toNat / 2 ^ (8 * k))) := by
  obtain ⟨h4, hend⟩ := h.aligned
  exact windowByte_of_resolve h.resolve_eq hk h4 (toNat_add_byte hend (by omega))

theorem toNat_setWidth64 (x : Word) : (x.setWidth 64).toNat = x.toNat := by
  rw [BitVec.toNat_setWidth]; omega

/-- The bytes of a limb: the lower four through the access of its lower half, the others through that of its upper. -/
theorem windowByte_limb (s : State) (i : RegIx) (j : Fin 5) {k : Nat} (hk : k < 8) :
    windowByte s (limbOffset i j + BitVec.ofNat 12 k) =
      some (BitVec.ofNat 8 ((s.limb i j).toNat / 2 ^ (8 * k))) := by
  by_cases hlo : k < 4
  · rw [windowByte_of_width32 (.lo i j) hlo, readTarget, partOf, toNat_setWidth64, toNat_loHalf,
      byte_mod_two_pow _ (by omega)]
  · obtain ⟨l, rfl⟩ : ∃ l, k = l + 4 := ⟨k - 4, by omega⟩
    have hoff : limbOffset i j + BitVec.ofNat 12 (l + 4) = limbOffset i j + 4#12 + BitVec.ofNat 12 l := by
      rw [Nat.add_comm, BitVec.ofNat_add, BitVec.add_assoc]
    rw [hoff, windowByte_of_width32 (.hi i j) (by omega), readTarget, partOf, toNat_setWidth64, toNat_hiHalf,
      div_two_pow_32_byte]

/-- R57, for every access that reaches a register. -/
theorem windowByte_of_reaches (s : State) {off : BitVec 12} {width : Nat} {r : Target} {k : Nat}
    (h : Reaches off width r) (hk : 8 * k < width) :
    windowByte s (off + BitVec.ofNat 12 k) = some (BitVec.ofNat 8 ((readTarget s r).toNat / 2 ^ (8 * k))) := by
  obtain rfl | rfl := h.width_eq
  · exact windowByte_of_width32 h (by omega)
  · cases h with
    | whole i j => exact windowByte_limb s i j (by omega)

/-- A part of a limb reads back as the bits written to it. -/
theorem toNat_partOf_read_writePart {off : BitVec 12} {width : Nat} {i : RegIx} {j : Fin 5} {part : Part}
    (h : Reaches off width (.limb i j part)) (c : LimbCell) (v draw : BitVec 64) :
    (partOf ((c.writePart v part).read draw) part).toNat = v.toNat % 2 ^ width := by
  cases h with
  | whole => rw [LimbCell.writePart, partOf, LimbCell.read_ofLimb, Nat.mod_eq_of_lt v.isLt]
  | lo => rw [LimbCell.writePart, partOf, LimbCell.read_withLo, loHalf_joinHalves, toNat_setWidth64, toNat_loHalf]
  | hi => rw [LimbCell.writePart, partOf, LimbCell.read_withHi, hiHalf_joinHalves, toNat_setWidth64, toNat_loHalf]

/-- Settles O45. -/
theorem windowIsLittleEndian : Obligations.WindowIsLittleEndian := by
  refine ⟨fun s off width r k hr hk => windowByte_of_reaches s (reaches_of_resolve hr) hk, fun s k hk => ?_,
    fun s i j k hk => windowByte_limb s i j hk, fun s off width v rest i j part hr hm => ?_⟩
  · refine ⟨windowByte_of_width32 .id hk, windowByte_of_width32 .version hk, windowByte_of_width32 .param hk, ?_, ?_,
      ?_, fun i => ?_⟩
    · rw [windowByte_of_width32 .cmd hk, readTarget, BitVec.toNat_ofNat, Nat.zero_mod, Nat.zero_div]
    · rw [windowByte_of_width32 .status hk, readTarget, toNat_setWidth64, toNat_statusWord]
    · rw [windowByte_of_width32 .faultCmd hk, readTarget, toNat_setWidth64]
    · rw [windowByte_of_width32 (.tag i) hk, readTarget, toNat_setWidth64, toNat_tagWord]
  · have hreach := reaches_of_resolve hr
    refine ⟨_, step_limbWrite hm hr, fun k hk => ?_⟩
    rw [windowByte_of_reaches _ hreach hk, readTarget, State.limb_respond, State.limb_writeCell_same,
      toNat_partOf_read_writePart hreach, byte_mod_two_pow]
    obtain rfl | rfl := hreach.width_eq <;> omega

/-! ### The frame of a command -/

theorem windowByte_congr {s t : State} {off : BitVec 12}
    (h : ∀ r, resolve (off &&& 0xFFC#12) 32 = some r → readTarget t r = readTarget s r) :
    windowByte t off = windowByte s off := by
  cases hr : resolve (off &&& 0xFFC#12) 32 with
  | none => simp only [windowByte, hr]
  | some r => simp only [windowByte, hr, h r hr]

theorem limb_eq_of_sameReg {s t : State} {i : RegIx} (h : SameReg s t i) (he : t.epoch = s.epoch) (j : Fin 5) :
    t.limb i j = s.limb i j := State.limb_congr i h.1 he j

theorem tagWord_eq_of_sameTag {s t : State} {i : RegIx} (h : SameTag s t i) :
    tagWord (t.mag i) (t.norm i) (t.valid i) = tagWord (s.mag i) (s.norm i) (s.valid i) := by
  obtain ⟨hm, hn, hv⟩ := h
  rw [hm, hn, hv]

/-- Settles O30: the register whose word holds the byte is none of those a command changes. -/
theorem commandWindowFrame : Obligations.CommandWindowFrame := by
  intro i s t off h hrd hstatus
  obtain ⟨hregs, ⟨hepoch, -, -⟩, -⟩ := commandFrame i s t h
  refine windowByte_congr fun r hr => ?_
  have hword := toNat_and_wordMask off
  have hreach := reaches_of_resolve hr
  generalize off &&& 0xFFC#12 = word at hword hreach
  have hne : ∀ {k : RegIx} {b : Nat}, word.toNat = 0x100 + 0x40 * k.toNat + b → b ≤ 0x28 → k ≠ destOf i := by
    rintro k b hb hle rfl
    omega
  cases hreach with
  | id | version | param | cmd => rfl
  | status => exact absurd hword (by rw [show (0x014#12).toNat = 0x014 from rfl]; omega)
  | faultCmd => exact absurd hword (by rw [show (0x018#12).toNat = 0x018 from rfl]; omega)
  | tag k =>
    have hk := hne (toNat_tagOffset k) (by omega)
    rw [readTarget, readTarget, tagWord_eq_of_sameTag (hregs k hk).2]
  | lo k j =>
    have hk := hne (toNat_limbOffset k j) (by omega)
    rw [readTarget, readTarget, limb_eq_of_sameReg (hregs k hk).1 hepoch]
  | hi k j =>
    have hk := hne (toNat_limbOffset_add_four k j) (by omega)
    rw [readTarget, readTarget, limb_eq_of_sameReg (hregs k hk).1 hepoch]

end Sys2Proof.Machine
end

section
/-!
The command format (spec/30_encoding.md R80 to R89): a word with RSV = 0 is assembled from its own fields, so a word
decodes to a command exactly when it is that command's encoding, and it decodes at all exactly when it is legal.
-/

namespace Sys2Proof.Machine

/-! ### A word and its fields -/

/-- The RS2 field of a command's word: the second source, and 0 in FSQR and FNORM (R83, R87). -/
def rs2Of : Instr → RegIx
  | .fadd _ _ rs2 => rs2
  | .fmul _ _ rs2 => rs2
  | .fsqr _ _ => 0#4
  | .fnorm _ _ => 0#4

theorem encode_eq_assemble (i : Instr) : encode i = assemble (opcodeOf i) (destOf i) (firstSource i) (rs2Of i) := by
  cases i with
  | fadd | fmul | fsqr | fnorm => rfl

/-- The bits of a field are the word's own, at its position. -/
theorem getLsbD_field (w : Word) {start len k : Nat} (hk : start ≤ k) (hlen : k < start + len) :
    (w.extractLsb' start len).getLsbD (k - start) = w.getLsbD k := by
  rw [BitVec.getLsbD_extractLsb', decide_eq_true (by omega), Bool.true_and, Nat.add_sub_of_le hk]

/-- The fields cover the word: with RSV = 0 it is assembled from the other four (R80). -/
theorem assemble_fields {w : Word} (h : rsvField w = 0#16) :
    assemble (opField w) (rdField w) (rs1Field w) (rs2Field w) = w := by
  apply BitVec.eq_of_getLsbD_eq
  intro k hk
  rw [getLsbD_assemble]
  split
  · exact getLsbD_field w (start := 0) (by omega) (by omega)
  split
  · exact getLsbD_field w (by omega) (by omega)
  split
  · exact getLsbD_field w (by omega) (by omega)
  split
  · exact getLsbD_field w (by omega) (by omega)
  · have hrsv : (rsvField w).getLsbD (k - 16) = w.getLsbD k := getLsbD_field w (by omega) (by omega)
    rw [← hrsv, h, BitVec.getLsbD_zero]

theorem toNat_opField (w : Word) : (opField w).toNat = w.toNat % 16 := by
  rw [opField, BitVec.extractLsb'_toNat, Nat.shiftRight_zero]

theorem toNat_rs2Field (w : Word) : (rs2Field w).toNat = w.toNat / 2 ^ 12 % 16 := by
  rw [rs2Field, BitVec.extractLsb'_toNat, Nat.shiftRight_eq_div_pow]

theorem toNat_rsvField (w : Word) : (rsvField w).toNat = w.toNat / 2 ^ 16 := by
  have := w.isLt
  rw [rsvField, BitVec.extractLsb'_toNat, Nat.shiftRight_eq_div_pow]
  omega

/-! ### Decoding and encoding -/

/-- Settles O1: the fields of the encoded word select the command's own row of the opcode map. -/
theorem decodeEncodeRoundTrip : Obligations.DecodeEncodeRoundTrip := by
  intro i
  cases i with
  | fadd | fmul => simp [encode, opcodeOf, decode]
  | fsqr | fnorm => simp [encode, opcodeOf, decode, decodeTwoReg]

theorem decodeTwoReg_eq_command {w : Word} {i j : Instr} (h : decodeTwoReg w j = .command i) :
    rs2Field w = 0#4 ∧ j = i := by
  unfold decodeTwoReg at h
  split at h
  next hrs2 =>
    cases h
    exact ⟨hrs2, rfl⟩
  next => cases h

/-- A word that decodes to a command has RSV = 0, and its other fields are those of the command. -/
theorem fields_of_decode {w : Word} {i : Instr} (h : decode w = .command i) :
    rsvField w = 0#16 ∧ opField w = opcodeOf i ∧ rdField w = destOf i ∧ rs1Field w = firstSource i ∧
      rs2Field w = rs2Of i := by
  unfold decode at h
  split at h
  next => cases h
  have hrsv : rsvField w = 0#16 := Decidable.not_not.mp ‹_›
  split at h
  next hadd =>
    cases h
    exact ⟨hrsv, hadd, rfl, rfl, rfl⟩
  split at h
  next hmul =>
    cases h
    exact ⟨hrsv, hmul, rfl, rfl, rfl⟩
  split at h
  next hsqr =>
    obtain ⟨hrs2, rfl⟩ := decodeTwoReg_eq_command h
    exact ⟨hrsv, hsqr, rfl, rfl, hrs2⟩
  split at h
  next hnorm =>
    obtain ⟨hrs2, rfl⟩ := decodeTwoReg_eq_command h
    exact ⟨hrsv, hnorm, rfl, rfl, hrs2⟩
  next => cases h

/-- Settles O2: the word is assembled from its fields, and they are the command's. -/
theorem encodeDecodeRoundTrip : Obligations.EncodeDecodeRoundTrip := by
  intro w i h
  obtain ⟨hrsv, hop, hrd, hrs1, hrs2⟩ := fields_of_decode h
  rw [encode_eq_assemble, ← hop, ← hrd, ← hrs1, ← hrs2, assemble_fields hrsv]

theorem decode_of_encode_eq {i : Instr} {w : Word} (h : encode i = w) : decode w = .command i :=
  h ▸ decodeEncodeRoundTrip i

/-- Settles O4: each word is the command's encoding, so it decodes to the command. -/
theorem workedEncodings : Obligations.WorkedEncodings := by
  have both : ∀ {i w}, encode i = w → encode i = w ∧ decode w = .command i := fun h => ⟨h, decode_of_encode_eq h⟩
  exact ⟨both (by decide), both (by decide), both (by decide), both (by decide), both (by decide), both (by decide)⟩

/-! ### Legal words -/

theorem legal_encode (i : Instr) : legal (encode i) = true := by
  cases i with
  | fadd rd rs1 rs2 => exact (Laws.EncodesLegal.fadd rd rs1 rs2).1
  | fmul rd rs1 rs2 => exact (Laws.EncodesLegal.fmul rd rs1 rs2).1
  | fsqr rd rs1 => exact (Laws.EncodesLegal.fsqr rd rs1).1
  | fnorm rd rs1 => exact (Laws.EncodesLegal.fnorm rd rs1).1

theorem legal_iff_fields (w : Word) : legal w = true ↔
    rsvField w = 0#16 ∧ (opField w = 1#4 ∨ opField w = 2#4 ∨
      ((opField w = 3#4 ∨ opField w = 4#4) ∧ rs2Field w = 0#4)) := by
  simp [legal_eq, or_assoc]

/-- R84 on numbers: RSV, OP and RS2 as quotients and remainders of the word. -/
theorem legal_iff_toNat (w : Word) : legal w = true ↔
    w.toNat / 2 ^ 16 = 0 ∧ (w.toNat % 16 = 1 ∨ w.toNat % 16 = 2 ∨
      ((w.toNat % 16 = 3 ∨ w.toNat % 16 = 4) ∧ w.toNat / 2 ^ 12 % 16 = 0)) := by
  simp only [legal_iff_fields, ← BitVec.toNat_inj, toNat_rsvField, toNat_opField, toNat_rs2Field,
    BitVec.toNat_ofNat, Nat.reducePow, Nat.reduceMod]

theorem exists_decode_iff_legal (w : Word) : (∃ i, decode w = .command i) ↔ legal w = true := by
  constructor
  · rintro ⟨i, h⟩
    rw [← encodeDecodeRoundTrip w i h]
    exact legal_encode i
  · rw [legal_iff_fields]
    rintro ⟨hrsv, hop | hop | ⟨hop | hop, hrs2⟩⟩
    · exact ⟨.fadd (rdField w) (rs1Field w) (rs2Field w), by simp [decode, hrsv, hop]⟩
    · exact ⟨.fmul (rdField w) (rs1Field w) (rs2Field w), by simp [decode, hrsv, hop]⟩
    · exact ⟨.fsqr (rdField w) (rs1Field w), by simp [decode, decodeTwoReg, hrsv, hop, hrs2]⟩
    · exact ⟨.fnorm (rdField w) (rs1Field w), by simp [decode, decodeTwoReg, hrsv, hop, hrs2]⟩

/-- The engine's step on a word that is no command records ILLEGAL_CMD with register 0 and the word (R84). -/
theorem engineStep_of_not_command {w : Word} (h : ∀ i, decode w ≠ .command i) (s : State) :
    engineStep s w = .next (s.raiseFault .illegalCmd 0#4 w).complete := by
  cases hd : decode w with
  | command i => exact absurd hd (h i)
  | illegal why => simp only [engineStep, hd, commandFault]

/-- Settles O3: decodable is legal, legal is the arithmetic of R84, and the engine faults on every other word. -/
theorem legalWordsAreTheCommands : Obligations.LegalWordsAreTheCommands := by
  intro w
  refine ⟨(exists_decode_iff_legal w).trans (legal_iff_toNat w), fun h s hw => ?_⟩
  refine ⟨_, (step_engine hw).trans (engineStep_of_not_command h s), fun k => ?_, ?_, ⟨rfl, rfl⟩, ?_⟩
  · exact sameReg_of_feReg (by simp) (by simp)
  · simp [SameOutside]
  · exact raiseFault_records s .illegalCmd 0#4 w

end Sys2Proof.Machine
end

section
/-!
FADD (spec/40_limb_adder.md R100 to R102): within magnitude 32 no lane wraps, so the limb vectors and their values add
exactly; the laws of limb addition; and the tag of the result.
-/

namespace Sys2Proof.Machine

/-! ### Limb addition -/

/-- Limb by limb, `c` is the exact sum of `a` and `b`: no lane wraps (R101). -/
def ExactLimbSum (a b c : Limbs) : Prop :=
  c.n0.toNat = a.n0.toNat + b.n0.toNat ∧ c.n1.toNat = a.n1.toNat + b.n1.toNat ∧
    c.n2.toNat = a.n2.toNat + b.n2.toNat ∧ c.n3.toNat = a.n3.toNat + b.n3.toNat ∧
    c.n4.toNat = a.n4.toNat + b.n4.toNat

/-- bound(M) grows with M (R15). -/
theorem HasMagnitude.mono {m m' : Nat} {n : Limbs} (h : HasMagnitude m n) (hm : m ≤ m') : HasMagnitude m' n := by
  have hlow : lowBound m ≤ lowBound m' := Nat.mul_le_mul_right _ hm
  have htop : topBound m ≤ topBound m' := Nat.mul_le_mul_right _ hm
  obtain ⟨h0, h1, h2, h3, h4⟩ := h
  exact ⟨Nat.le_trans h0 hlow, Nat.le_trans h1 hlow, Nat.le_trans h2 hlow, Nat.le_trans h3 hlow,
    Nat.le_trans h4 htop⟩

/-- bound(32) leaves a 64-bit lane room: each exact sum is at most 32·(2^53 − 1) (R101). -/
theorem exactLimbSum_addLimbs {a b : Limbs} {k l : Nat} (hkl : k + l ≤ 32) (ha : HasMagnitude k a)
    (hb : HasMagnitude l b) : ExactLimbSum a b (addLimbs a b) := by
  obtain ⟨a0, a1, a2, a3, a4⟩ := ha
  obtain ⟨b0, b1, b2, b3, b4⟩ := hb
  simp only [ExactLimbSum, addLimbs, BitVec.toNat_add, lowBound, topBound] at *
  omega

theorem ExactLimbSum.valueOf_eq {a b c : Limbs} (h : ExactLimbSum a b c) : valueOf c = valueOf a + valueOf b := by
  obtain ⟨h0, h1, h2, h3, h4⟩ := h
  simp only [valueOf, h0, h1, h2, h3, h4]
  omega

theorem addLimbs_comm (a b : Limbs) : addLimbs a b = addLimbs b a := by
  simp only [addLimbs, BitVec.add_comm]

theorem addLimbs_assoc (a b c : Limbs) : addLimbs (addLimbs a b) c = addLimbs a (addLimbs b c) := by
  simp only [addLimbs, BitVec.add_assoc]

theorem addLimbs_limbsOf_zero (a : Limbs) : addLimbs a (limbsOf 0) = a := by
  simp [addLimbs, limbsOf]

/-! ### The command -/

/-- FADD of registers that pass the checks does not depend on their order: the same state, bit for bit (R102). -/
theorem exec_fadd_comm {s : State} {a b : RegIx} (d : RegIx) (ha : s.valid a = true) (hb : s.valid b = true)
    (hm : (s.mag a).toNat + (s.mag b).toNat ≤ 32) : exec (.fadd d b a) s = exec (.fadd d a b) s := by
  rw [exec_fadd_passes ha hb hm, exec_fadd_passes hb ha (by omega), addLimbs_comm (s.limbs b),
    Nat.add_comm (s.mag b).toNat]

/-- A register that a command writes meets the tag invariant whatever stood there, if its new tag is true. -/
theorem tagInv_writeFe_same (s : State) (i : RegIx) {n : Limbs} {m : BitVec 6} {z : Bool} (hg : GoodTag n m z) :
    TagInv (s.writeFe i n m z) i := by
  simpa [tagInv_iff] using hg

/-- Settles O12: the sources' magnitudes make the lanes exact, and the sum has magnitude at most 32. -/
theorem faddNoLimbOverflows : Obligations.FaddNoLimbOverflows := by
  intro s d a b ha hb hm hta htb
  obtain ⟨-, -, hma, -⟩ := hta.goodTag ha
  obtain ⟨-, -, hmb, -⟩ := htb.goodTag hb
  refine ⟨_, exec_fadd_passes ha hb hm, ?_⟩
  rw [State.limbs_complete, State.limbs_writeFe_same]
  obtain ⟨e0, e1, e2, e3, e4⟩ := exactLimbSum_addLimbs hm hma hmb
  obtain ⟨h0, h1, h2, h3, h4⟩ := (hasMagnitude_addLimbs hma hmb).mono hm
  have below58 {x : Nat} (h : x ≤ lowBound 32) : x < 2 ^ 58 := Nat.lt_of_le_of_lt h (by decide)
  have below54 {x : Nat} (h : x ≤ topBound 32) : x < 2 ^ 54 := Nat.lt_of_le_of_lt h (by decide)
  exact ⟨e0, e1, e2, e3, e4, h0, h1, h2, h3, h4, below58 h0, below58 h1, below58 h2, below58 h3, below54 h4⟩

/-- Settles O13: exact lanes add the values, and the tag written is true of the sum; the swapped command ends in the
same state. -/
theorem faddResultLaw : Obligations.FaddResultLaw := by
  refine ⟨fun s d a b ha hb hm hta htb => ?_, addLimbs_limbsOf_zero, addLimbs_assoc⟩
  have hga := hta.goodTag ha
  have hgb := htb.goodTag hb
  have hg := goodTag_addLimbs hm hga hgb
  obtain ⟨-, -, hma, -⟩ := hga
  obtain ⟨-, -, hmb, -⟩ := hgb
  have hval := (exactLimbSum_addLimbs hm hma hmb).valueOf_eq
  have hmag : (BitVec.ofNat 6 ((s.mag a).toNat + (s.mag b).toNat)).toNat = (s.mag a).toNat + (s.mag b).toNat :=
    Nat.mod_eq_of_lt (by omega)
  have hexec := exec_fadd_passes (d := d) ha hb hm
  refine ⟨_, _, hexec, (exec_fadd_comm d ha hb hm).trans hexec, ?_⟩
  simp only [State.limbs_complete, State.mag_complete, State.norm_complete, State.valid_complete,
    State.limbs_writeFe_same, State.mag_writeFe_same, State.norm_writeFe_same, State.valid_writeFe_same,
    true_and, and_true]
  exact ⟨hval, by rw [hval, Nat.add_mod], hasMagnitude_addLimbs hma hmb, hmag,
    tagInv_writeFe_same s d hg⟩

end Sys2Proof.Machine
end

section
/-!
FNORM (spec/41_normalizer.md R120, R126, R127): what the function N gives for the limbs of a valid register, and N as
the choice of one representative for each class mod p.
-/

namespace Sys2Proof.Machine

/-! ### Canonical vectors -/

/-- A canonical vector has magnitude 1 (R15). -/
theorem Canonical.hasMagnitude_one {n : Limbs} (h : Canonical n) : HasMagnitude 1 n := by
  obtain ⟨-, -, hmag, -⟩ := goodTag_of_canonical h
  exact hmag

/-- An element has one canonical vector (R15). -/
theorem Canonical.eq_of_valueOf_eq {a b : Limbs} (ha : Canonical a) (hb : Canonical b)
    (h : valueOf a = valueOf b) : a = b := by
  obtain ⟨a0, a1, a2, a3, -⟩ := ha
  obtain ⟨b0, b1, b2, b3, -⟩ := hb
  exact limbs_eq_of_valueOf ⟨a0, a1, a2, a3⟩ ⟨b0, b1, b2, b3⟩ h

/-! ### N picks the representative -/

/-- N leaves a canonical vector as it is (R127): its value is below p, so the value mod p is the value. -/
theorem normalizeLimbs_of_canonical {n : Limbs} (h : Canonical n) : normalizeLimbs n = n := by
  obtain ⟨hcan, hval⟩ := normalizeLimbs_spec (by decide) h.hasMagnitude_one
  obtain ⟨-, -, -, -, -, hlt⟩ := id h
  exact hcan.eq_of_valueOf_eq h (hval.trans (Nat.mod_eq_of_lt hlt))

/-- Congruence mod p is equality of the N images (R127). -/
theorem valueOf_mod_p_eq_iff {x y : Limbs} {m k : Nat} (hm : m ≤ 2047) (hk : k ≤ 2047) (hx : HasMagnitude m x)
    (hy : HasMagnitude k y) :
    valueOf x % Config.p = valueOf y % Config.p ↔ normalizeLimbs x = normalizeLimbs y := by
  obtain ⟨hcx, hvx⟩ := normalizeLimbs_spec hm hx
  obtain ⟨hcy, hvy⟩ := normalizeLimbs_spec hk hy
  rw [← hvx, ← hvy]
  exact ⟨hcx.eq_of_valueOf_eq hcy, congrArg valueOf⟩

/-- A valid register's magnitude is at most 32, well within N's range (R22, R126). -/
theorem TagInv.normalizeLimbs_spec {s : State} {a : RegIx} (h : TagInv s a) (ha : s.valid a = true) :
    Canonical (normalizeLimbs (s.limbs a)) ∧
      valueOf (normalizeLimbs (s.limbs a)) = valueOf (s.limbs a) % Config.p := by
  obtain ⟨-, hmax, hmag, -⟩ := h.goodTag ha
  exact Machine.normalizeLimbs_spec (Nat.le_trans hmax (by decide)) hmag

/-! ### The obligations -/

/-- Settles O23: FNORM writes N of the source's limbs, which lie within N's range. -/
theorem fnormCanonicalises : Obligations.FnormCanonicalises := by
  intro s d a ha hta
  refine ⟨_, exec_fnorm_passes ha, ?_⟩
  simpa using hta.normalizeLimbs_spec ha

/-- Settles O24: the function by its spec up to magnitude 2047; the command because the tag 1, 1 is true of a canonical
vector. -/
theorem normalizerResultLaw : Obligations.NormalizerResultLaw := by
  refine ⟨fun m n => normalizeLimbs_spec, fun s d a ha hta => ⟨_, exec_fnorm_passes ha, ?_⟩⟩
  obtain ⟨hcan, -⟩ := hta.normalizeLimbs_spec ha
  rw [State.mag_complete, State.norm_complete, State.mag_writeFe_same, State.norm_writeFe_same]
  exact ⟨rfl, rfl, tagInv_writeFe_same s d (goodTag_of_canonical hcan)⟩

/-- Settles O25: N's image is canonical, so N fixes it, and equal images are equal values mod p. -/
theorem normalizerIdempotent : Obligations.NormalizerIdempotent := by
  refine ⟨fun n => normalizeLimbs_of_canonical, fun m n hm h => ?_, fun m k x y => valueOf_mod_p_eq_iff⟩
  obtain ⟨hcan, -⟩ := normalizeLimbs_spec hm h
  exact normalizeLimbs_of_canonical hcan

end Sys2Proof.Machine
end

section
/-!
REDUCE (spec/42_reduce.md R142 to R145) under the multiplier and the squarer: the columns carry the exact product and
grow with the limbs, three folds bring every value below 2^545 under 2^256, and the two commands write those folds.
-/

namespace Sys2Proof.Machine

/-! ### Columns -/

/-- `a` is at most `b`, limb by limb. -/
abbrev LimbsLe (a b : Limbs) : Prop :=
  a.n0.toNat ≤ b.n0.toNat ∧ a.n1.toNat ≤ b.n1.toNat ∧ a.n2.toNat ≤ b.n2.toNat ∧ a.n3.toNat ≤ b.n3.toNat ∧
    a.n4.toNat ≤ b.n4.toNat

/-- `c` is at most `d`, column by column. -/
abbrev ColumnsLe (c d : Columns) : Prop :=
  c.c0 ≤ d.c0 ∧ c.c1 ≤ d.c1 ∧ c.c2 ≤ d.c2 ∧ c.c3 ≤ d.c3 ∧ c.c4 ≤ d.c4 ∧ c.c5 ≤ d.c5 ∧ c.c6 ≤ d.c6 ∧ c.c7 ≤ d.c7 ∧
    c.c8 ≤ d.c8

/-- Nine columns of the same height. -/
def constColumns (k : Nat) : Columns := ⟨k, k, k, k, k, k, k, k, k⟩

theorem ColumnsLe.trans {c d e : Columns} (h : ColumnsLe c d) (h' : ColumnsLe d e) : ColumnsLe c e := by
  unfold ColumnsLe at *
  omega

/-- The columns are sums of products of limbs, so they grow with the limbs (R160). -/
theorem cols_mono {a b m n : Limbs} (ha : LimbsLe a m) (hb : LimbsLe b n) : ColumnsLe (cols a b) (cols m n) := by
  obtain ⟨a0, a1, a2, a3, a4⟩ := ha
  obtain ⟨b0, b1, b2, b3, b4⟩ := hb
  simp only [ColumnsLe, cols]
  have mul {w x y z : Nat} (h : w ≤ x) (h' : y ≤ z) : w * y ≤ x * z := Nat.mul_le_mul h h'
  have add {w x y z : Nat} (h : w ≤ x) (h' : y ≤ z) : w + y ≤ x + z := Nat.add_le_add h h'
  exact ⟨mul a0 b0,
    add (mul a0 b1) (mul a1 b0),
    add (add (mul a0 b2) (mul a1 b1)) (mul a2 b0),
    add (add (add (mul a0 b3) (mul a1 b2)) (mul a2 b1)) (mul a3 b0),
    add (add (add (add (mul a0 b4) (mul a1 b3)) (mul a2 b2)) (mul a3 b1)) (mul a4 b0),
    add (add (add (mul a1 b4) (mul a2 b3)) (mul a3 b2)) (mul a4 b1),
    add (add (mul a2 b4) (mul a3 b3)) (mul a4 b2),
    add (mul a3 b4) (mul a4 b3),
    mul a4 b4⟩

theorem columnValue_mono {c d : Columns} (h : ColumnsLe c d) : columnValue c ≤ columnValue d := by
  obtain ⟨h0, h1, h2, h3, h4, h5, h6, h7, h8⟩ := h
  unfold columnValue
  iterate 8 refine Nat.add_le_add ?_ (Nat.mul_le_mul_right _ (by assumption))
  exact h0

/-- The value of a limb vector as a polynomial in 2^52. -/
theorem valueOf_eq_pow (n : Limbs) :
    valueOf n = n.n0.toNat + n.n1.toNat * 2 ^ 52 + n.n2.toNat * (2 ^ 52) ^ 2 + n.n3.toNat * (2 ^ 52) ^ 3 +
      n.n4.toNat * (2 ^ 52) ^ 4 := by
  simp only [valueOf, ← Nat.pow_mul, Nat.reduceMul]

/-- The value of nine columns as a polynomial in 2^52. -/
theorem columnValue_eq_pow (c : Columns) :
    columnValue c = c.c0 + c.c1 * 2 ^ 52 + c.c2 * (2 ^ 52) ^ 2 + c.c3 * (2 ^ 52) ^ 3 + c.c4 * (2 ^ 52) ^ 4 +
      c.c5 * (2 ^ 52) ^ 5 + c.c6 * (2 ^ 52) ^ 6 + c.c7 * (2 ^ 52) ^ 7 + c.c8 * (2 ^ 52) ^ 8 := by
  simp only [columnValue, ← Nat.pow_mul, Nat.reduceMul]

/-- The nine columns carry the exact product (R160): they are the coefficients of the product of two polynomials. -/
theorem columnValue_cols (a b : Limbs) : columnValue (cols a b) = valueOf a * valueOf b := by
  rw [columnValue_eq_pow, valueOf_eq_pow, valueOf_eq_pow, cols]
  generalize 2 ^ 52 = x
  grind

/-- The squarer's columns are the multiplier's (R162). -/
theorem sqcols_eq_cols (a : Limbs) : sqcols a = cols a a := by
  simp only [sqcols, cols, Columns.mk.injEq, true_and, and_true]
  refine ⟨?_, ?_, ?_, ?_, ?_, ?_, ?_⟩ <;> grind

/-! ### The largest products -/

/-- bound(8), the largest limb vector FMUL and FSQR take (R15, R166). -/
def bound8 : Limbs :=
  { n0 := BitVec.ofNat 64 (lowBound 8), n1 := BitVec.ofNat 64 (lowBound 8), n2 := BitVec.ofNat 64 (lowBound 8),
    n3 := BitVec.ofNat 64 (lowBound 8), n4 := BitVec.ofNat 64 (topBound 8) }

theorem HasMagnitude.le_bound8 {n : Limbs} (h : HasMagnitude 8 n) : LimbsLe n bound8 := h

/-- In the worst case no column reaches 2^114, and c_3 has 114 bits (R145). -/
theorem cols_bound8 :
    ColumnsLe (cols bound8 bound8) (constColumns (2 ^ 114 - 1)) ∧ 2 ^ 113 ≤ (cols bound8 bound8).c3 := by
  decide +kernel

/-- The width of the source's accumulators as one bound on the columns (R140). -/
theorem columnsLe_of_lt {c : Columns} (h0 : c.c0 < 2 ^ 128) (h1 : c.c1 < 2 ^ 128) (h2 : c.c2 < 2 ^ 128)
    (h3 : c.c3 < 2 ^ 128) (h4 : c.c4 < 2 ^ 128) (h5 : c.c5 < 2 ^ 128) (h6 : c.c6 < 2 ^ 128) (h7 : c.c7 < 2 ^ 128)
    (h8 : c.c8 < 2 ^ 128) : ColumnsLe c (constColumns (2 ^ 128)) := by
  simp only [ColumnsLe, constColumns]
  omega

theorem columnValue_lt_of_columns {c : Columns} (h : ColumnsLe c (constColumns (2 ^ 128))) :
    columnValue c < 2 ^ 545 :=
  Nat.lt_of_le_of_lt (columnValue_mono h) (by decide +kernel)

/-- Five limbs of 64 bits, whatever their magnitude, are worth less than 2^272 + 2^256. -/
theorem valueOf_lt (n : Limbs) : valueOf n < 65537 * 2 ^ 256 := by
  unfold valueOf
  omega

/-- A product of any two limb vectors is within the reach of three folds, also where a column is not below 2^128. -/
theorem columnValue_cols_lt (a b : Limbs) : columnValue (cols a b) < 2 ^ 545 := by
  rw [columnValue_cols]
  exact Nat.lt_trans (Nat.mul_lt_mul'' (valueOf_lt a) (valueOf_lt b)) (by decide +kernel)

/-! ### Three folds -/

/-- Of the k bits above 2^256 a fold makes at most 33 + k bits, as r < 2^33. -/
theorem fold_lt {x k m n : Nat} (hn : n = 256 + k) (hm : m = 33 + k) (h : x < 2 ^ n) :
    fold x < 2 ^ 256 + 2 ^ m := by
  rw [hn, Nat.pow_add] at h
  rw [hm, Nat.pow_add]
  have hq : x / 2 ^ 256 ≤ 2 ^ k := Nat.le_of_lt (Nat.div_lt_of_lt_mul h)
  exact Nat.add_lt_add_of_lt_of_le (Nat.mod_lt _ (by decide)) (Nat.mul_le_mul (by decide) hq)

/-- 289 bits above 2^256 become 322 (R144). -/
theorem fold_lt_of_lt {v : Nat} (h : v < 2 ^ 545) : fold v < 2 ^ 256 + 2 ^ 322 :=
  fold_lt (n := 545) (m := 322) (k := 289) rfl rfl h

/-- The 67 bits that the first fold leaves above 2^256 become 100 (R144). -/
theorem fold_fold_lt {v : Nat} (h : v < 2 ^ 545) : fold (fold v) < 2 ^ 256 + 2 ^ 100 :=
  have hfirst : fold v < 2 ^ 323 := Nat.lt_trans (fold_lt_of_lt h) (by decide +kernel)
  fold_lt (n := 323) (k := 67) rfl rfl hfirst

/-- The last fold: a value that is still not below 2^256 leaves a small remainder, and one r is added to it. -/
theorem fold_lt_of_lt_add {y : Nat} (h : y < 2 ^ 256 + 2 ^ 100) : fold y < 2 ^ 256 := by
  unfold fold Config.r
  omega

theorem fold_fold_fold_lt {v : Nat} (h : v < 2 ^ 545) : fold (fold (fold v)) < 2 ^ 256 :=
  fold_lt_of_lt_add (fold_fold_lt h)

theorem foldWhile_of_lt {y : Nat} (k : Nat) (h : y < 2 ^ 256) : foldWhile k y = y := by
  cases k with
  | zero => rfl
  | succ k => exact if_neg (Nat.not_le_of_lt h)

/-- The loop's condition does not matter: where it fails, the fold changes nothing. -/
theorem foldWhile_succ (k y : Nat) : foldWhile (k + 1) y = foldWhile k (fold y) := by
  by_cases h : 2 ^ 256 ≤ y
  · exact if_pos h
  · have hy : y < 2 ^ 256 := Nat.lt_of_not_le h
    rw [fold_of_lt hy, foldWhile_of_lt _ hy, foldWhile_of_lt _ hy]

/-- The loop ends after at most three folds (R144). -/
theorem foldWhile_eq {v k : Nat} (h : v < 2 ^ 545) (hk : 3 ≤ k) : foldWhile k v = fold (fold (fold v)) := by
  obtain ⟨j, rfl⟩ := Nat.exists_eq_add_of_le' hk
  rw [foldWhile_succ, foldWhile_succ, foldWhile_succ, foldWhile_of_lt j (fold_fold_fold_lt h)]

/-! ### REDUCE -/

/-- REDUCE's value is the three folds of the product (R142, R144). -/
theorem valueOf_reduce {c : Columns} (h : columnValue c < 2 ^ 545) :
    valueOf (reduce c) = fold (fold (fold (columnValue c))) := by
  rw [reduce, foldWhile_eq h (Nat.le_refl 3), valueOf_limbsOf (fold_fold_fold_lt h)]

theorem valueOf_reduce_lt {c : Columns} (h : columnValue c < 2 ^ 545) : valueOf (reduce c) < 2 ^ 256 := by
  rw [valueOf_reduce h]
  exact fold_fold_fold_lt h

theorem valueOf_reduce_mod_p {c : Columns} (h : columnValue c < 2 ^ 545) :
    valueOf (reduce c) % Config.p = columnValue c % Config.p := by
  rw [valueOf_reduce h, fold_mod_p, fold_mod_p, fold_mod_p]

theorem reduce_range (c : Columns) :
    (reduce c).n0.toNat < 2 ^ 52 ∧ (reduce c).n1.toNat < 2 ^ 52 ∧ (reduce c).n2.toNat < 2 ^ 52 ∧
      (reduce c).n3.toNat < 2 ^ 52 ∧ (reduce c).n4.toNat < 2 ^ 48 := limbsOf_range _

/-- Multiplying by 1 leaves a vector of 256 bits as its value cut in limbs, canonical or not (R143). -/
theorem reduce_cols_one {v : Nat} (h : v < 2 ^ 256) : reduce (cols (limbsOf 1) (limbsOf v)) = limbsOf v := by
  rw [reduce, columnValue_cols, valueOf_limbsOf (by decide), valueOf_limbsOf h, Nat.one_mul, foldWhile_of_lt 3 h]

theorem not_canonical_limbsOf_p : ¬ Canonical (limbsOf Config.p) := by
  rintro ⟨-, -, -, -, -, hlt⟩
  rw [valueOf_limbsOf (by decide)] at hlt
  exact Nat.lt_irrefl _ hlt

/-! ### The commands -/

/-- FSQR is FMUL with both sources the same (R164). -/
theorem exec_fsqr_eq_fmul {s : State} {a : RegIx} (d : RegIx) (ha : s.valid a = true) (hm : (s.mag a).toNat ≤ 8) :
    exec (.fsqr d a) s = exec (.fmul d a a) s := by
  rw [exec_fsqr_passes ha hm, exec_fmul_passes ha ha hm hm, sqcols_eq_cols]

/-- The tag that FMUL writes, and that it is true of the limbs beside it (R143). -/
theorem exec_fmul_tag {s : State} {a b : RegIx} (d : RegIx) (ha : s.valid a = true) (hb : s.valid b = true)
    (hma : (s.mag a).toNat ≤ 8) (hmb : (s.mag b).toNat ≤ 8) :
    ∃ t, exec (.fmul d a b) s = .next t ∧ t.mag d = 1#6 ∧ t.norm d = false ∧ t.valid d = true ∧ TagInv t d := by
  refine ⟨_, exec_fmul_passes ha hb hma hmb, by simp, by simp, by simp, ?_⟩
  exact tagInv_writeFe_same s d (goodTag_reduce _)

/-- The bits that FMUL writes: the exact product folded three times, cut in limbs (R142, R161). -/
theorem exec_fmul_value {s : State} {a b : RegIx} (d : RegIx) (ha : s.valid a = true) (hb : s.valid b = true)
    (hma : (s.mag a).toNat ≤ 8) (hmb : (s.mag b).toNat ≤ 8) :
    ∃ t, exec (.fmul d a b) s = .next t ∧
      valueOf (t.limbs d) = fold (fold (fold (valueOf (s.limbs a) * valueOf (s.limbs b)))) ∧
      (t.limbs d).n0.toNat < 2 ^ 52 ∧ (t.limbs d).n1.toNat < 2 ^ 52 ∧ (t.limbs d).n2.toNat < 2 ^ 52 ∧
      (t.limbs d).n3.toNat < 2 ^ 52 ∧ (t.limbs d).n4.toNat < 2 ^ 48 := by
  refine ⟨_, exec_fmul_passes ha hb hma hmb, ?_⟩
  rw [State.limbs_complete, State.limbs_writeFe_same, valueOf_reduce (columnValue_cols_lt _ _), columnValue_cols]
  exact ⟨rfl, reduce_range _⟩

/-! ### The obligations -/

/-- Settles O15: columns grow with the limbs, so bound(8) × bound(8) has the largest ones; its columns are computed. -/
theorem columnsStayBelowAccumulator : Obligations.ColumnsStayBelowAccumulator := by
  refine ⟨fun a b ha hb => ?_, by decide, ?_⟩
  · have hmax : ColumnsLe (cols bound8 bound8) (constColumns (5 * (8 * (2 ^ 53 - 1)) ^ 2)) := by decide +kernel
    exact (cols_mono ha.le_bound8 hb.le_bound8).trans hmax
  · rintro _ rfl
    obtain ⟨⟨h0, h1, h2, h3, h4, h5, h6, h7, h8⟩, hc3⟩ := cols_bound8
    have below {x : Nat} (h : x ≤ 2 ^ 114 - 1) : x < 2 ^ 114 := Nat.lt_of_le_of_lt h (by decide)
    exact ⟨below h0, below h1, below h2, below h3, below h4, below h5, below h6, below h7, below h8, hc3⟩

/-- Settles O16: each fold's bound follows from the one before it; the values that need two and three folds, and the
worst case of magnitude 8, are computed. -/
theorem threeFoldsSuffice : Obligations.ThreeFoldsSuffice := by
  refine ⟨fun c h0 h1 h2 h3 h4 h5 h6 h7 h8 => ?_, fun x => fold_of_lt, fun v hv => ?_, by decide +kernel, ?_, ?_⟩
  · exact columnValue_lt_of_columns (columnsLe_of_lt h0 h1 h2 h3 h4 h5 h6 h7 h8)
  · have hff := fold_fold_lt hv
    exact ⟨fold_lt_of_lt hv, hff, by omega, fold_lt_of_lt_add hff, fun k => foldWhile_eq hv⟩
  · rintro _ rfl
    decide +kernel
  · rintro _ rfl
    refine ⟨fun a b ha hb => columnValue_mono (cols_mono ha.le_bound8 hb.le_bound8), ?_⟩
    decide +kernel

/-- Settles O17: REDUCE is three folds, each of which keeps the residue; the tag of FMUL and FSQR is true of any vector
in range. -/
theorem reduceOutputProperties : Obligations.ReduceOutputProperties := by
  refine ⟨fun c h0 h1 h2 h3 h4 h5 h6 h7 h8 => ?_, ⟨reduce_cols_one (by decide), not_canonical_limbsOf_p⟩,
    fun s d a b => exec_fmul_tag d, fun s d a ha hm => ?_⟩
  · have hv := columnValue_lt_of_columns (columnsLe_of_lt h0 h1 h2 h3 h4 h5 h6 h7 h8)
    obtain ⟨r0, r1, r2, r3, r4⟩ := reduce_range c
    obtain ⟨-, -, hmag, -⟩ := goodTag_reduce c
    exact ⟨valueOf_reduce_mod_p hv, valueOf_reduce_lt hv, r0, r1, r2, r3, r4, hmag⟩
  · rw [exec_fsqr_eq_fmul d ha hm]
    exact exec_fmul_tag d ha ha hm hm

/-- Settles O19: the function described is the model's fold, and FSQR is FMUL of a register with itself. -/
theorem productsAreThreeFolds : Obligations.ProductsAreThreeFolds := by
  intro f hf
  obtain rfl : f = fold := funext hf
  refine ⟨fun s d a b => exec_fmul_value d, fun s d a ha hm => ?_⟩
  rw [exec_fsqr_eq_fmul d ha hm]
  exact exec_fmul_value d ha ha hm hm

end Sys2Proof.Machine
end

section
/-!
FMUL and FSQR (spec/43_multiplier_squarer.md R160 to R165) in GF(p): the product of two limb vectors, whatever their
magnitudes, as a value, as a class mod p and, after N, limb for limb.
-/

namespace Sys2Proof.Machine

/-! ### The product of two limb vectors -/

theorem valueOf_reduce_cols_lt (a b : Limbs) : valueOf (reduce (cols a b)) < 2 ^ 256 :=
  valueOf_reduce_lt (columnValue_cols_lt a b)

/-- The product is the product of the values mod p (R143, R160). -/
theorem valueOf_reduce_cols_mod_p (a b : Limbs) :
    valueOf (reduce (cols a b)) % Config.p = valueOf a * valueOf b % Config.p := by
  rw [← columnValue_cols]
  exact valueOf_reduce_mod_p (columnValue_cols_lt a b)

/-- REDUCE reads its columns only as a value, and the value of a product is commutative (R165). -/
theorem reduce_cols_comm (a b : Limbs) : reduce (cols a b) = reduce (cols b a) := by
  rw [reduce, reduce, columnValue_cols, columnValue_cols, Nat.mul_comm]

/-- REDUCE's limbs have magnitude 1 (R143). -/
theorem hasMagnitude_reduce (c : Columns) : HasMagnitude 1 (reduce c) := by
  obtain ⟨-, -, hmag, -⟩ := goodTag_reduce c
  exact hmag

theorem valueOf_reduce_cols_one_mod_p (a : Limbs) :
    valueOf (reduce (cols a (limbsOf 1))) % Config.p = valueOf a % Config.p := by
  rw [valueOf_reduce_cols_mod_p, valueOf_limbsOf (by decide), Nat.mul_one]

/-- Both bracketings are the product of three values mod p, so their N images are one vector (R127, R165). -/
theorem normalizeLimbs_reduce_cols_assoc (a b c : Limbs) :
    normalizeLimbs (reduce (cols (reduce (cols a b)) c)) = normalizeLimbs (reduce (cols a (reduce (cols b c)))) := by
  refine (valueOf_mod_p_eq_iff (by decide) (by decide) (hasMagnitude_reduce _) (hasMagnitude_reduce _)).mp ?_
  calc valueOf (reduce (cols (reduce (cols a b)) c)) % Config.p
      = valueOf (reduce (cols a b)) * valueOf c % Config.p := valueOf_reduce_cols_mod_p _ _
    _ = valueOf a * valueOf b * valueOf c % Config.p := by
      rw [← Nat.mod_mul_mod, valueOf_reduce_cols_mod_p, Nat.mod_mul_mod]
    _ = valueOf a * (valueOf b * valueOf c) % Config.p := by rw [Nat.mul_assoc]
    _ = valueOf a * valueOf (reduce (cols b c)) % Config.p := by
      rw [← Nat.mul_mod_mod, ← valueOf_reduce_cols_mod_p b c, Nat.mul_mod_mod]
    _ = valueOf (reduce (cols a (reduce (cols b c)))) % Config.p := (valueOf_reduce_cols_mod_p _ _).symm

/-- Where the lanes of both sums are exact, sum of products and product of sum are congruent mod p (R101, R165). -/
theorem normalizeLimbs_reduce_cols_addLimbs (a : Limbs) {b c : Limbs} {mb mc : Nat} (hb : HasMagnitude mb b)
    (hc : HasMagnitude mc c) (hm : mb + mc ≤ 32) :
    normalizeLimbs (reduce (cols a (addLimbs b c))) =
      normalizeLimbs (addLimbs (reduce (cols a b)) (reduce (cols a c))) := by
  have hab := hasMagnitude_reduce (cols a b)
  have hac := hasMagnitude_reduce (cols a c)
  refine (valueOf_mod_p_eq_iff (by decide) (by decide) (hasMagnitude_reduce _) (hasMagnitude_addLimbs hab hac)).mp ?_
  calc valueOf (reduce (cols a (addLimbs b c))) % Config.p
      = valueOf a * valueOf (addLimbs b c) % Config.p := valueOf_reduce_cols_mod_p _ _
    _ = (valueOf a * valueOf b + valueOf a * valueOf c) % Config.p := by
      rw [(exactLimbSum_addLimbs hm hb hc).valueOf_eq, Nat.mul_add]
    _ = (valueOf (reduce (cols a b)) + valueOf (reduce (cols a c))) % Config.p := by
      rw [Nat.add_mod, ← valueOf_reduce_cols_mod_p a b, ← valueOf_reduce_cols_mod_p a c, ← Nat.add_mod]
    _ = valueOf (addLimbs (reduce (cols a b)) (reduce (cols a c))) % Config.p := by
      rw [(exactLimbSum_addLimbs (by decide) hab hac).valueOf_eq]

/-! ### The command -/

/-- FMUL of registers that pass the checks does not depend on their order: the same state, bit for bit (R165). -/
theorem exec_fmul_comm {s : State} {a b : RegIx} (d : RegIx) (ha : s.valid a = true) (hb : s.valid b = true)
    (hma : (s.mag a).toNat ≤ 8) (hmb : (s.mag b).toNat ≤ 8) : exec (.fmul d b a) s = exec (.fmul d a b) s := by
  rw [exec_fmul_passes ha hb hma hmb, exec_fmul_passes hb ha hmb hma, reduce_cols_comm (s.limbs b)]

/-! ### The obligations -/

/-- Settles O18: FMUL writes REDUCE of the exact columns, which keeps the product mod p and goes below 2^256. -/
theorem fmulMultipliesModP : Obligations.FmulMultipliesModP := by
  intro s d a b ha hb hma hmb
  refine ⟨_, exec_fmul_passes ha hb hma hmb, ?_⟩
  simp only [State.limbs_complete, State.mag_complete, State.norm_complete, State.valid_complete,
    State.limbs_writeFe_same, State.mag_writeFe_same, State.norm_writeFe_same, State.valid_writeFe_same, and_true]
  exact ⟨valueOf_reduce_cols_mod_p _ _, valueOf_reduce_cols_lt _ _⟩

/-- Settles O20: FSQR is FMUL of a register with itself, whose product is the square. -/
theorem fsqrSquaresModP : Obligations.FsqrSquaresModP := by
  intro s d a ha hm
  rw [exec_fsqr_eq_fmul d ha hm, Nat.pow_two]
  exact fmulMultipliesModP s d a a ha ha hm hm

/-- Settles O21: the squarer's columns are the multiplier's, so both commands write the same vector and tag. -/
theorem squareEqualsMultiply : Obligations.SquareEqualsMultiply := by
  intro s d a ha hm
  have hmul := exec_fmul_passes (d := d) ha ha hm hm
  exact ⟨_, (exec_fsqr_eq_fmul d ha hm).trans hmul, hmul⟩

/-- Settles O22: products in either order are one vector; the other laws are those of the values mod p, carried to limbs
by N. -/
theorem multiplicationLaws : Obligations.MultiplicationLaws := by
  refine ⟨fun s d a b ha hb hma hmb => ?_, fun a => ?_, fun a b c _ _ _ => ?_, fun a b c mb mc _ hb hc hm => ?_⟩
  · have hmul := exec_fmul_passes (d := d) ha hb hma hmb
    exact ⟨_, _, hmul, (exec_fmul_comm d ha hb hma hmb).trans hmul, rfl⟩
  · exact ⟨valueOf_reduce_cols_lt _ _, valueOf_reduce_cols_one_mod_p a⟩
  · exact normalizeLimbs_reduce_cols_assoc a b c
  · exact normalizeLimbs_reduce_cols_addLimbs a hb hc (Nat.le_trans hm (by decide))

/-- Settles O14: columns are the coefficients of a product of polynomials in 2^52, doubled cross terms included. -/
theorem columnsMultiplyExactly : Obligations.ColumnsMultiplyExactly :=
  ⟨columnValue_cols, sqcols_eq_cols⟩

end Sys2Proof.Machine
end

section
/-!
The host-side reference functions on limb vectors (spec/48_host_reference.md R181 to R188): small integers, negation,
the 32-byte serialization, and the predicates of normalized values.
-/

namespace Sys2Proof.Machine

/-! ### Multiplying and negating a limb -/

/-- A limb times a number does not wrap while the exact product leaves room for it. -/
theorem toNat_mul_ofNat {x : Limb} {k : Nat} (h : x.toNat * k < 2 ^ 64) :
    (x * BitVec.ofNat 64 k).toNat = x.toNat * k := by
  rw [BitVec.toNat_mul, BitVec.toNat_ofNat, Nat.mul_mod_mod, Nat.mod_eq_of_lt h]

/-- One lane of mul_int (R185): within magnitude 32 the product is exact and its bound is multiplied too. -/
theorem toNat_mul_lane {x : Limb} {m k b : Nat} (hx : x.toNat ≤ m * b) (hm : m * k ≤ 32) (hb : b < 2 ^ 53) :
    (x * BitVec.ofNat 64 k).toNat = x.toNat * k ∧ x.toNat * k ≤ m * k * b := by
  have hle : x.toNat * k ≤ m * k * b := by
    rw [Nat.mul_right_comm]
    exact Nat.mul_le_mul_right k hx
  have hmax : m * k * b ≤ 32 * b := Nat.mul_le_mul_right b hm
  exact ⟨toNat_mul_ofNat (by omega), hle⟩

/-- A limb below 2^52 times 2·(M+1) does not wrap (R184). -/
theorem toNat_negate_constant {q : Limb} {m : Nat} (hm : m + 1 ≤ 32) (hq : q.toNat < 2 ^ 52) :
    (BitVec.ofNat 64 (2 * (m + 1)) * q).toNat = 2 * (m + 1) * q.toNat := by
  have hmax : q.toNat * (2 * (m + 1)) ≤ q.toNat * 64 := Nat.mul_le_mul_left _ (by omega)
  rw [BitVec.mul_comm, toNat_mul_ofNat (by omega), Nat.mul_comm]

/-- One lane of negate (R184): `q` is the limb of p there and `b` the limb's bound at magnitude 1. The constant
2·(M+1)·q covers every limb within M·b, so nothing is borrowed, and what is left is within (M+1)·b. -/
theorem toNat_negate_lane {x q : Limb} {m b : Nat} (hm : m + 1 ≤ 32) (hx : x.toNat ≤ m * b)
    (hq : q.toNat < 2 ^ 52) (hb : 2 * q.toNat ≤ b) (hgap : 31 * b ≤ 64 * q.toNat) :
    (BitVec.ofNat 64 (2 * (m + 1)) * q).toNat = (BitVec.ofNat 64 (2 * (m + 1)) * q - x).toNat + x.toNat ∧
      (BitVec.ofNat 64 (2 * (m + 1)) * q - x).toNat ≤ (m + 1) * b := by
  have hc := toNat_negate_constant hm hq
  have hcover : m * b ≤ 2 * (m + 1) * q.toNat := by
    obtain ⟨e, rfl⟩ := Nat.exists_eq_add_of_le hb
    have hgap' : m * e ≤ 31 * e := Nat.mul_le_mul_right e (by omega)
    have hsplit : m * (2 * q.toNat + e) = 2 * (m * q.toNat) + m * e := by rw [Nat.mul_add, Nat.mul_left_comm]
    have hdistrib : 2 * (m + 1) * q.toNat = 2 * (m * q.toNat) + 2 * q.toNat := by
      rw [Nat.mul_assoc, Nat.add_mul, Nat.mul_add, Nat.one_mul]
    omega
  have hmost : 2 * (m + 1) * q.toNat ≤ (m + 1) * b := by
    rw [Nat.mul_comm 2, Nat.mul_assoc]
    exact Nat.mul_le_mul_left _ hb
  rw [BitVec.toNat_sub_of_le (by rw [BitVec.le_def, hc]; omega), hc]
  omega

/-! ### Small integers and negation -/

/-- The constants of negate are 2·(M+1)·p, limb by limb (R184, C2). -/
theorem valueOf_negateConstants {m : Nat} (hm : m + 1 ≤ 32) :
    valueOf (negateConstants m) = 2 * (m + 1) * Config.p := by
  have hlo := toNat_negate_constant (q := Config.pLo52) hm (by decide)
  have hmid := toNat_negate_constant (q := Config.pMid52) hm (by decide)
  have hhi := toNat_negate_constant (q := Config.pHi48) hm (by decide)
  simp only [valueOf, negateConstants, hlo, hmid, hhi]
  simp only [Config.pLo52, Config.pMid52, Config.pHi48, BitVec.toNat_ofNat, Config.p]
  omega

/-- Five independent lanes, no borrow between them (R184). -/
def subLimbs (c a : Limbs) : Limbs :=
  { n0 := c.n0 - a.n0, n1 := c.n1 - a.n1, n2 := c.n2 - a.n2, n3 := c.n3 - a.n3, n4 := c.n4 - a.n4 }

theorem negate_eq_some {a : HostValue} {m : Nat} (ha : a.mag ≤ m) (hm : m + 1 ≤ 32) :
    negate a m = some { n := subLimbs (negateConstants m) a.n, mag := m + 1, norm := false } :=
  if_pos ⟨ha, hm⟩

/-- No lane of negate borrows, and the difference has magnitude M + 1 (R184). -/
theorem subLimbs_negateConstants {n : Limbs} {m : Nat} (hm : m + 1 ≤ 32) (h : HasMagnitude m n) :
    ExactLimbSum (subLimbs (negateConstants m) n) n (negateConstants m) ∧
      HasMagnitude (m + 1) (subLimbs (negateConstants m) n) := by
  obtain ⟨h0, h1, h2, h3, h4⟩ := h
  have mid {x : Limb} (h : x.toNat ≤ lowBound m) :=
    toNat_negate_lane (q := Config.pMid52) hm h (by decide) (by decide) (by decide)
  obtain ⟨e0, b0⟩ := toNat_negate_lane (q := Config.pLo52) hm h0 (by decide) (by decide) (by decide)
  obtain ⟨e1, b1⟩ := mid h1
  obtain ⟨e2, b2⟩ := mid h2
  obtain ⟨e3, b3⟩ := mid h3
  obtain ⟨e4, b4⟩ := toNat_negate_lane (q := Config.pHi48) hm h4 (by decide) (by decide) (by decide)
  exact ⟨⟨e0, e1, e2, e3, e4⟩, b0, b1, b2, b3, b4⟩

/-- Settles O52: the difference and the limbs add up to the constants, whose value is 2·(M+1)·p. -/
theorem negateNegatesModP : Obligations.NegateNegatesModP := by
  intro a m hmag ha hm
  obtain ⟨hexact, hbound⟩ := subLimbs_negateConstants hm (hmag.mono ha)
  refine ⟨_, negate_eq_some ha hm, rfl, rfl, hbound, ?_⟩
  rw [← hexact.valueOf_eq, valueOf_negateConstants hm]
  exact ⟨rfl, Nat.mul_mod_left _ _⟩

/-- Settles O53: the lanes of mul_int do not wrap within magnitude 32; set_int's vector is one limb below 2^52. -/
theorem smallIntegersMultiply : Obligations.SmallIntegersMultiply := by
  refine ⟨fun a k hmag hk hm => ?_, fun a ha => ?_⟩
  · obtain ⟨h0, h1, h2, h3, h4⟩ := hmag
    obtain ⟨e0, b0⟩ := toNat_mul_lane h0 hm (by decide)
    obtain ⟨e1, b1⟩ := toNat_mul_lane h1 hm (by decide)
    obtain ⟨e2, b2⟩ := toNat_mul_lane h2 hm (by decide)
    obtain ⟨e3, b3⟩ := toNat_mul_lane h3 hm (by decide)
    obtain ⟨e4, b4⟩ := toNat_mul_lane h4 hm (by decide)
    refine ⟨_, if_pos ⟨hk, hm⟩, rfl, rfl, ?_⟩
    simp only [HasMagnitude, valueOf, e0, e1, e2, e3, e4]
    exact ⟨⟨b0, b1, b2, b3, b4⟩, by simp only [Nat.add_mul, Nat.mul_right_comm _ _ k]⟩
  · have hn : (BitVec.ofNat 64 a).toNat = a := toNat_ofNat_limb (by omega)
    refine ⟨_, if_pos ha, rfl, rfl, ?_⟩
    simp only [Canonical, valueOf, hn, BitVec.toNat_ofNat, Config.p]
    omega

/-! ### Serialization -/

/-- The number of a list of bytes, least significant first. -/
def littleEndian : List (BitVec 8) → Nat
  | [] => 0
  | b :: bs => b.toNat + 256 * littleEndian bs

theorem littleEndian_eq_foldr (bs : List (BitVec 8)) :
    littleEndian bs = bs.foldr (fun b v => v * 256 + b.toNat) 0 := by
  induction bs with
  | nil => rfl
  | cons b bs ih => rw [littleEndian, List.foldr_cons, ← ih, Nat.mul_comm, Nat.add_comm]

/-- buf[0] is the most significant byte (R182). -/
theorem bytesValue_eq_littleEndian (buf : Vector (BitVec 8) 32) :
    bytesValue buf = littleEndian buf.toList.reverse := by
  rw [littleEndian_eq_foldr, List.foldr_reverse, bytesValue]

theorem littleEndian_lt (bs : List (BitVec 8)) : littleEndian bs < 256 ^ bs.length := by
  induction bs with
  | nil => decide
  | cons b bs ih =>
    rw [littleEndian, List.length_cons, Nat.pow_succ]
    omega

/-- Byte `i` of the list is the byte of weight 256^i. -/
theorem littleEndian_byte (bs : List (BitVec 8)) (i : Nat) (h : i < bs.length) :
    littleEndian bs / 256 ^ i % 256 = bs[i].toNat := by
  induction bs generalizing i with
  | nil => cases h
  | cons b bs ih =>
    have hb := b.isLt
    cases i with
    | zero =>
      rw [littleEndian, Nat.pow_zero, Nat.div_one, List.getElem_cons_zero]
      omega
    | succ i =>
      have hdiv : (b.toNat + 256 * littleEndian bs) / 256 = littleEndian bs := by omega
      rw [littleEndian, Nat.pow_succ', ← Nat.div_div_eq_div_mul, hdiv, List.getElem_cons_succ]
      exact ih i _

theorem bytesValue_lt (buf : Vector (BitVec 8) 32) : bytesValue buf < 2 ^ 256 := by
  have h := littleEndian_lt buf.toList.reverse
  rw [List.length_reverse, Vector.length_toList] at h
  rw [bytesValue_eq_littleEndian]
  exact h

/-- buf[k] is the byte of weight 256^(31−k) (R182). -/
theorem bytesValue_byte (buf : Vector (BitVec 8) 32) (k : Fin 32) :
    bytesValue buf / 2 ^ (8 * (31 - k.val)) % 256 = buf[k].toNat := by
  have hlen : 31 - k.val < buf.toList.reverse.length := by
    rw [List.length_reverse, Vector.length_toList]
    omega
  have hk : 31 - (31 - k.val) = k.val := by omega
  rw [Nat.pow_mul, bytesValue_eq_littleEndian]
  refine (littleEndian_byte _ _ hlen).trans ?_
  simp only [List.getElem_reverse, Vector.length_toList, Vector.getElem_toList, Nat.add_one_sub_one, hk]
  rfl

/-- Numbers that agree in their `k` lowest bytes agree mod 256^k. -/
theorem mod_pow_eq_of_bytes {a b : Nat} (k : Nat) (h : ∀ i < k, a / 256 ^ i % 256 = b / 256 ^ i % 256) :
    a % 256 ^ k = b % 256 ^ k := by
  induction k with
  | zero => simp [Nat.mod_one]
  | succ k ih =>
    rw [Nat.pow_succ, Nat.mod_mul, Nat.mod_mul, ih fun i hi => h i (by omega), h k (by omega)]

/-- The 32 big-endian bytes of a number (R183). -/
def bytesOf (v : Nat) : Vector (BitVec 8) 32 :=
  Vector.ofFn fun k : Fin 32 => BitVec.ofNat 8 (v / 2 ^ (8 * (31 - k.val)))

theorem bytesOf_bytesValue (buf : Vector (BitVec 8) 32) : bytesOf (bytesValue buf) = buf := by
  apply Vector.ext
  intro k hk
  apply BitVec.eq_of_toNat_eq
  rw [bytesOf, Vector.getElem_ofFn, BitVec.toNat_ofNat]
  exact bytesValue_byte buf ⟨k, hk⟩

theorem bytesValue_bytesOf {v : Nat} (h : v < 2 ^ 256) : bytesValue (bytesOf v) = v := by
  have hmod : bytesValue (bytesOf v) % 256 ^ 32 = v % 256 ^ 32 := mod_pow_eq_of_bytes 32 fun i hi => by
    have hb := bytesValue_byte (bytesOf v) ⟨31 - i, by omega⟩
    have hi' : 31 - (31 - i) = i := by omega
    simpa [bytesOf, hi', Nat.pow_mul] using hb
  have := bytesValue_lt (bytesOf v)
  omega

theorem toBytes_of_norm {x : HostValue} (h : x.norm = true) : toBytes x = some (bytesOf (valueOf x.n)) := if_pos h

/-- Settles O54: bytes and limbs are two writings of one number below 2^256. -/
theorem bytesRoundTrip : Obligations.BytesRoundTrip := by
  refine ⟨fun buf => ?_, fun x hnorm hmag hcan => ⟨_, toBytes_of_norm hnorm, ?_⟩⟩
  · rw [toBytes_of_norm rfl, setFromBytes, valueOf_limbsOf (bytesValue_lt buf), bytesOf_bytesValue]
  · obtain ⟨n, mag, norm⟩ := x
    obtain ⟨h0, h1, h2, h3, -, hp⟩ := id hcan
    have hlt : valueOf n < 2 ^ 256 := Nat.lt_trans hp (by decide)
    obtain ⟨r0, r1, r2, r3, -⟩ := limbsOf_range (valueOf n)
    cases hmag
    cases hnorm
    rw [setFromBytes, bytesValue_bytesOf hlt,
      limbs_eq_of_valueOf ⟨r0, r1, r2, r3⟩ ⟨h0, h1, h2, h3⟩ (valueOf_limbsOf hlt)]

/-! ### Predicates -/

theorem Canonical.mod_p {n : Limbs} (h : Canonical n) : valueOf n % Config.p = valueOf n := by
  obtain ⟨-, -, -, -, -, hlt⟩ := h
  exact Nat.mod_eq_of_lt hlt

theorem Canonical.mod_p_eq_iff {a b : Limbs} (ha : Canonical a) (hb : Canonical b) :
    valueOf a % Config.p = valueOf b % Config.p ↔ a = b := by
  rw [ha.mod_p, hb.mod_p]
  exact ⟨ha.eq_of_valueOf_eq hb, congrArg valueOf⟩

theorem valueOf_eq_zero_iff (n : Limbs) :
    valueOf n = 0 ↔ n.n0 = 0#64 ∧ n.n1 = 0#64 ∧ n.n2 = 0#64 ∧ n.n3 = 0#64 ∧ n.n4 = 0#64 := by
  simp only [valueOf, ← BitVec.toNat_inj, BitVec.toNat_ofNat]
  omega

theorem valueOf_mod_two (n : Limbs) : valueOf n % 2 = n.n0.toNat % 2 := by
  simp only [valueOf]
  omega

theorem hostEqual_of_norm {x y : HostValue} (hx : x.norm = true) (hy : y.norm = true) :
    hostEqual x y = some (x.n == y.n) := by
  rw [hostEqual, hx, hy]
  rfl

/-- Settles O55: a canonical value is its own residue, and the limbs are those of the value. -/
theorem hostPredicatesAreFieldPredicates : Obligations.HostPredicatesAreFieldPredicates := by
  intro x y hx hy hcx hcy
  refine ⟨(hostEqual_of_norm hx hy).trans (congrArg some ?_), (if_pos hx).trans (congrArg some ?_),
    (if_pos hx).trans (congrArg some ?_)⟩
  · rw [Bool.eq_iff_iff, beq_iff_eq, decide_eq_true_iff, hcx.mod_p_eq_iff hcy]
  · rw [Bool.eq_iff_iff, decide_eq_true_iff, hcx.mod_p, valueOf_eq_zero_iff]
    simp only [Bool.and_eq_true, beq_iff_eq, and_assoc]
  · rw [valueOf_mod_two]
    exact Nat.testBit_zero _

end Sys2Proof.Machine
end

section
/-!
LOADFE and STOREFE (spec/48_host_reference.md R189, R190) as sequences of accesses to the register window: what the five
limb writes leave in the register, and the tag word both ways.
-/

namespace Sys2Proof.Machine

/-! ### The tag word -/

theorem getElem_bit32 (b : Bool) {k : Nat} (h : k < 32) : (bit32 b)[k] = (decide (k = 0) && b) := by
  cases b <;> simp [bit32]

@[simp] theorem tagMag_tagWord (m : BitVec 6) (z v : Bool) : tagMag (tagWord m z v) = m := by
  apply BitVec.eq_of_toNat_eq
  rw [toNat_tagMag, toNat_tagWord]
  omega

@[simp] theorem tagNorm_tagWord (m : BitVec 6) (z v : Bool) : tagNorm (tagWord m z v) = z := by
  simp [tagNorm, tagWord, getElem_bit32]

/-- VALID is bit 16 of TAG (R34). -/
@[simp] theorem getLsbD_tagWord_valid (m : BitVec 6) (z v : Bool) : (tagWord m z v).getLsbD 16 = v := by
  simp [tagWord, getElem_bit32]

/-- LOADFE's word is TAG's with VALID = 0 (R34, R189). -/
theorem loadTag_eq_tagWord {x : HostValue} (h : x.mag < 64) :
    loadTag x = tagWord (BitVec.ofNat 6 x.mag) x.norm false := by
  have hmag : (BitVec.ofNat 6 x.mag).setWidth 32 = BitVec.ofNat 32 x.mag := by
    apply BitVec.eq_of_toNat_eq
    simp only [BitVec.toNat_setWidth, BitVec.toNat_ofNat]
    omega
  simp [loadTag, tagWord, hmag, bit32, BitVec.or_comm]

theorem loHalf_setWidth (w : Word) : loHalf (w.setWidth 64) = w := by
  apply BitVec.eq_of_toNat_eq
  rw [toNat_loHalf, toNat_setWidth64]
  omega

/-! ### LOADFE -/

/-- A 64-bit write of a limb, served. -/
def State.writeLimb (s : State) (i : RegIx) (j : Fin 5) (v : Limb) : State :=
  (s.writeCell i j (.ofLimb v)).respond .accepted

/-- The state after the five limb writes of LOADFE (R189). -/
def State.loadLimbs (s : State) (i : RegIx) (n : Limbs) : State :=
  ((((s.writeLimb i 0 n.n0).writeLimb i 1 n.n1).writeLimb i 2 n.n2).writeLimb i 3 n.n3).writeLimb i 4 n.n4

theorem hostStep_writeLimb (s : State) (i : RegIx) (j : Fin 5) (v : Limb) :
    hostStep s (.write (limbOffset i j) 64 v) = .next (s.writeLimb i j v) := by
  simp only [hostStep, resolve_limb_whole, writeTarget, limbWrite, State.writeLimb]

theorem serve_cons_of_next {s t : State} {a : HostAction} (h : hostStep s a = .next t) (rest : List HostAction) :
    serve s (a :: rest) = serve t rest := by
  simp only [serve, h]

/-- LOADFE is its five limb writes, then the TAG write. -/
theorem serve_loadFe (s : State) (i : RegIx) (x : HostValue) :
    serve s (loadFe i x) =
      serve (s.loadLimbs i x.n) [.write (tagOffset i) 32 ((loadTag x).setWidth 64)] := by
  rw [loadFe]
  iterate 5 rw [serve_cons_of_next (hostStep_writeLimb ..)]
  rfl

/-- Writing all five places of a vector leaves nothing of it. -/
theorem set_five_eq {α : Type} (v : Vector α 5) (a b c d e : α) :
    ((((v.set 0 a).set 1 b).set 2 c).set 3 d).set 4 e = #v[a, b, c, d, e] := by
  apply Vector.ext
  intro j hj
  match j with
  | 0 | 1 | 2 | 3 | 4 => simp

section loadLimbs
variable (s : State) (i : RegIx) (n : Limbs)

/-- Five limb writes replace the register: every limb written, the tag cleared (R61). -/
theorem State.feReg_loadLimbs :
    (s.loadLimbs i n).feReg i = { n := cellsOf n, mag := 0#6, norm := false, valid := false } := by
  simp only [State.loadLimbs, State.writeLimb, State.feReg_respond, State.writeCell, State.feReg_setFeReg_same,
    FeReg.mk.injEq, and_true]
  exact set_five_eq ..

theorem State.feReg_loadLimbs_other {k : RegIx} (h : k ≠ i) : (s.loadLimbs i n).feReg k = s.feReg k := by
  simp only [State.loadLimbs, State.writeLimb, State.feReg_respond, State.feReg_writeCell_other _ _ _ _ _ h]

@[simp] theorem State.limbs_loadLimbs : (s.loadLimbs i n).limbs i = n := by
  have h : (s.loadLimbs i n).feReg i = ((s.writeFe i n 0#6 false).clearTag i).feReg i := by
    simp [State.feReg_loadLimbs, State.clearTag, State.writeFe]
  rw [State.limbs_congr i h rfl, State.limbs_clearTag, State.limbs_writeFe_same]

@[simp] theorem State.allWritten_loadLimbs : (s.loadLimbs i n).allWritten i = true := by
  simp [State.allWritten, State.feReg_loadLimbs, cellsOf]

end loadLimbs

/-- LOADFE served: the five limb writes, then a TAG write of written limbs, which does not stop (R62, R189). -/
theorem serve_loadFe_eq_next (s : State) (i : RegIx) (x : HostValue) :
    serve s (loadFe i x) = .next ((tagWrite (s.loadLimbs i x.n) i (loadTag x)).respond .accepted) := by
  have htag : hostStep (s.loadLimbs i x.n) (.write (tagOffset i) 32 ((loadTag x).setWidth 64)) =
      .next ((tagWrite (s.loadLimbs i x.n) i (loadTag x)).respond .accepted) := by
    simp only [hostStep, resolve_tag, writeTarget, State.allWritten_loadLimbs, if_true, loHalf_setWidth]
  rw [serve_loadFe, serve_cons_of_next htag]
  rfl

/-- Settles O50: the TAG write checks the host value's own limbs and tag. -/
theorem loadFeLoadsHostValue : Obligations.LoadFeLoadsHostValue := by
  intro s i x hx
  obtain ⟨hlimbs, hregs⟩ := tagWrite_frame (s.loadLimbs i x.n) i (loadTag x)
  have hmag : (tagMag (loadTag x)).toNat = x.mag := by
    rw [loadTag_eq_tagWord hx, tagMag_tagWord, BitVec.toNat_ofNat, Nat.mod_eq_of_lt hx]
  have hnorm : tagNorm (loadTag x) = x.norm := by rw [loadTag_eq_tagWord hx, tagNorm_tagWord]
  have hcheck : TagCheck ((s.loadLimbs i x.n).limbs i) (loadTag x) ↔
      (1 ≤ x.mag ∧ x.mag ≤ 32 ∧ HasMagnitude x.mag x.n ∧ (x.norm = true → x.mag = 1 ∧ Canonical x.n)) := by
    rw [State.limbs_loadLimbs, TagCheck, hmag, hnorm, Config.magMax]
  rw [← hcheck]
  refine ⟨_, serve_loadFe_eq_next s i x, hlimbs.trans (s.limbs_loadLimbs i x.n), fun k hk => ?_, ?_⟩
  · obtain ⟨⟨hreg, hl⟩, -⟩ := hregs k hk
    have hload := s.feReg_loadLimbs_other i x.n hk
    have hfe := hreg.trans hload
    exact ⟨⟨hfe, hl.trans (State.limbs_congr k hload rfl)⟩, sameTag_of_feReg hfe⟩
  · obtain ⟨hc, e⟩ | ⟨hc, e⟩ := tagWrite_cases (s.loadLimbs i x.n) i (loadTag x) <;> rw [e]
    · refine ⟨fun _ => ?_, fun hn => absurd hc hn⟩
      simp only [State.mag_respond, State.norm_respond, State.valid_respond, State.mag_setTag, State.norm_setTag,
        State.valid_setTag, hmag, hnorm, true_and]
      exact ⟨rfl, rfl, rfl, rfl⟩
    · refine ⟨fun hp => absurd hp hc, fun _ => ⟨by simp [TagCleared], fun hf => ?_⟩⟩
      exact (raiseFault_records ((s.loadLimbs i x.n).clearTag i) .tagInvalid i (loadTag x)).1 hf

/-! ### STOREFE -/

/-- The state with more responses given, in order. -/
def State.respondAll (s : State) (rs : List Response) : State := { s with responses := s.responses ++ rs }

theorem readTarget_respondAll (s : State) (rs : List Response) (r : Target) :
    readTarget (s.respondAll rs) r = readTarget s r := by cases r <;> rfl

theorem State.respond_respondAll (s : State) (rs : List Response) (r : Response) :
    (s.respondAll rs).respond r = s.respondAll (rs ++ [r]) := by
  simp [State.respondAll, State.respond]

/-- A read that reaches a register adds its value to the responses and leaves the block (R58, R63). -/
theorem hostStep_read_respondAll (s : State) (rs : List Response) {off : BitVec 12} {width : Nat} {r : Target}
    (h : resolve off width = some r) :
    hostStep (s.respondAll rs) (.read off width) = .next (s.respondAll (rs ++ [.data (readTarget s r)])) := by
  simp only [hostStep, h, readTarget_respondAll, State.respond_respondAll]

/-- The six responses of STOREFE. -/
def storeResponses (s : State) (i : RegIx) : List Response :=
  [.data (s.limb i 0), .data (s.limb i 1), .data (s.limb i 2), .data (s.limb i 3), .data (s.limb i 4),
   .data ((tagWord (s.mag i) (s.norm i) (s.valid i)).setWidth 64)]

theorem serve_storeFe (s : State) (i : RegIx) : serve s (storeFe i) = .next (s.respondAll (storeResponses s i)) := by
  have hs : s = s.respondAll [] := by simp [State.respondAll]
  conv => lhs; rw [hs, storeFe]
  iterate 5 rw [serve_cons_of_next (hostStep_read_respondAll s _ (resolve_limb_whole i _))]
  rw [serve_cons_of_next (hostStep_read_respondAll s _ (resolve_tag i))]
  rfl

/-- The host reads the register's limbs and tag out of the six responses, if VALID = 1 (R190). -/
theorem storedValue_storeResponses {s : State} {i : RegIx} (h : s.valid i = true) :
    storedValue (storeResponses s i) = some { n := s.limbs i, mag := (s.mag i).toNat, norm := s.norm i } := by
  have hvalid : ((tagWord (s.mag i) (s.norm i) (s.valid i)).setWidth 64).getLsbD 16 = true := by
    rw [BitVec.getLsbD_setWidth, getLsbD_tagWord_valid, h]
    rfl
  have hnorm : ((tagWord (s.mag i) (s.norm i) (s.valid i)).setWidth 64).getLsbD 8 = s.norm i := by
    rw [← tagNorm_loHalf, loHalf_setWidth, tagNorm_tagWord]
  have hmag : (((tagWord (s.mag i) (s.norm i) (s.valid i)).setWidth 64).extractLsb' 0 6).toNat = (s.mag i).toNat := by
    rw [BitVec.extractLsb'_toNat, Nat.shiftRight_zero, toNat_setWidth64, ← toNat_tagMag, tagMag_tagWord]
  simp only [storeResponses, storedValue, hvalid, hnorm, hmag, if_true]
  rfl

/-- Settles O51. -/
theorem storeFeReadsBack : Obligations.StoreFeReadsBack := fun s i h =>
  ⟨_, serve_storeFe s i, storedValue_storeResponses h⟩

end Sys2Proof.Machine
end

section
/-!
Faults (spec/60_exceptions.md R201 to R208): a command that faults leaves every FE register, the recorded fault stays
until the reset, and a recorded fault changes nothing of what an access does to the FE registers.
-/

namespace Sys2Proof.Machine

/-! ### Commands that fault (R203, R204, R206) -/

/-- A fault writes no limb and no tag (R204). -/
theorem sameReg_sameTag_raiseFault_complete (s : State) (c : Cause) (f : RegIx) (w : Word) (k : RegIx) :
    SameReg s (s.raiseFault c f w).complete k ∧ SameTag s (s.raiseFault c f w).complete k :=
  ⟨sameReg_of_feReg (by simp) (by simp), sameTag_of_feReg (by simp)⟩

/-- Settles O27: the checks of a command are those of `firstFault`, in its order, and only the first fault recorded is
kept. -/
theorem firstFaultInOrderIsRecorded : Obligations.FirstFaultInOrderIsRecorded := by
  intro s i
  cases hf : firstFault s i with
  | none => exact ⟨_, exec_of_firstFault_none hf, ⟨rfl, rfl⟩, fun _ => ⟨⟨rfl, rfl, rfl, rfl⟩, by simp⟩, nofun⟩
  | some cf =>
    refine ⟨_, exec_of_firstFault_some hf, ⟨rfl, rfl⟩, nofun, ?_⟩
    rintro c f ⟨⟩
    obtain ⟨hfirst, hlater⟩ := raiseFault_records s c f (encode i)
    exact ⟨fun k => (sameReg_sameTag_raiseFault_complete s c f (encode i) k).1, by simp [SameOutside], hfirst, hlater⟩

/-- A word that is illegal, or whose command meets a fault, ends in a recorded fault and nothing else. -/
theorem engineStep_of_faulting {s : State} {w : Word} (h : ∀ i, decode w = .command i → firstFault s i ≠ none) :
    ∃ c f x, engineStep s w = .next (s.raiseFault c f x).complete := by
  cases hd : decode w with
  | command i =>
    obtain ⟨⟨c, f⟩, hf⟩ := Option.ne_none_iff_exists'.mp (h i hd)
    exact ⟨c, f, _, (engineStep_of_command hd s).trans (exec_of_firstFault_some hf)⟩
  | illegal why => exact ⟨_, _, _, engineStep_of_not_command (by simp [hd]) s⟩

/-- Settles O28. -/
theorem faultingCommandWritesNothing : Obligations.FaultingCommandWritesNothing := by
  intro s t w hw ht hfault k
  obtain ⟨c, f, x, e⟩ := engineStep_of_faulting hfault
  rw [step_engine hw, e] at ht
  cases ht
  exact sameReg_sameTag_raiseFault_complete s c f x k

/-- The first source is the first register a command checks (R206). -/
theorem firstFault_of_unloaded_firstSource {s : State} {i : Instr} (h : s.valid (firstSource i) = false) :
    firstFault s i = some (.uninitSrc, firstSource i) := by
  cases i with
  | fadd d a b => exact if_pos h
  | fmul d a b => exact if_pos h
  | fsqr d a => exact if_pos h
  | fnorm d a => exact if_pos h

/-- Settles O32. -/
theorem unloadedSourceFaults : Obligations.UnloadedSourceFaults := by
  refine ⟨fun s i hv hf => ?_, fun k => (tagCleared_of_atReset (State.feReg_reset k)).1⟩
  obtain ⟨t, ht, -, -, hfault⟩ := firstFaultInOrderIsRecorded s i
  obtain ⟨hregs, -, hrecorded, -⟩ := hfault _ _ (firstFault_of_unloaded_firstSource hv)
  exact ⟨t, ht, hrecorded hf, hregs⟩

/-- Settles O33. -/
theorem firstFaultIsKept : Obligations.FirstFaultIsKept := by
  refine ⟨fun s c f w => ⟨(raiseFault_records s c f w).1, s.raiseFault_of_fault c f w, ?_⟩, fun s i v ha => ?_⟩
  · exact ⟨_, rfl, ⟨rfl, rfl⟩, ⟨rfl, rfl, rfl, rfl⟩, s.raiseFault_fe c f w⟩
  · refine ⟨(tagWrite s i (loHalf v)).respond .accepted, if_pos ha, ?_⟩
    obtain ⟨-, e⟩ | ⟨-, e⟩ := tagWrite_cases s i (loHalf v) <;> rw [e] <;> simp

/-! ### The recorded fault stays (R208) -/

section faulted
variable {s t : State} (hf : s.fault = true)
include hf

theorem sameFaultRegs_engineStep_of_fault {w : Word} (h : engineStep s w = .next t) : SameFaultRegs s t := by
  obtain ⟨d, n, m, z, e⟩ | ⟨c, f, x, e⟩ := engineStep_cases s w <;> rw [e] at h <;> cases h
  · exact ⟨rfl, rfl, rfl, rfl⟩
  · exact (raiseFault_records s c f x).2 hf

/-- A write that reaches a register can raise TAG_INVALID only, which is then not recorded. -/
theorem sameFaultRegs_write_of_fault (h : WriteEffect s t) : SameFaultRegs s t := by
  cases h with
  | ignored => exact ⟨rfl, rfl, rfl, rfl⟩
  | issued w _ => exact ⟨rfl, rfl, rfl, rfl⟩
  | limb i j c => exact ⟨rfl, rfl, rfl, rfl⟩
  | tag i x _ =>
    obtain ⟨-, e⟩ | ⟨-, e⟩ := tagWrite_cases s i x <;> rw [e]
    · exact ⟨rfl, rfl, rfl, rfl⟩
    · exact (raiseFault_records (s.clearTag i) .tagInvalid i x).2 hf

/-- Of all moves only the reset changes the fault registers of a faulted block. -/
theorem step_keeps_fault (h : step s = .next t) : SameFaultRegs s t ∨ ∃ rest, HostMoves s .reset rest := by
  obtain ⟨w, hw⟩ | ⟨a, rest, hm⟩ | ⟨hi, hh⟩ := moves_cases s
  · rw [step_engine hw] at h
    exact .inl (sameFaultRegs_engineStep_of_fault hf h)
  · obtain ⟨rfl, -⟩ | ⟨r, e⟩ | ⟨off, width, v, r, -, -, -, e⟩ := step_host_cases hm
    · exact .inr ⟨rest, hm⟩
    · rw [e] at h
      cases h
      exact .inl ⟨rfl, rfl, rfl, rfl⟩
    · rw [e] at h
      obtain ⟨t', e', heffect⟩ | ⟨i, -, -, e'⟩ := writeTarget_cases (s.setHost rest) v r <;> rw [e'] at h <;> cases h
      exact .inl (sameFaultRegs_write_of_fault (s := s.setHost rest) hf heffect)
  · rw [step_idle hi hh] at h
    cases h
    exact .inl ⟨rfl, rfl, rfl, rfl⟩

end faulted

/-- Settles O34. -/
theorem faultIsStickyUntilReset : Obligations.FaultIsStickyUntilReset := fun _ _ hf h =>
  (step_keeps_fault hf h).imp_left fun ⟨hfault, hregs⟩ => ⟨hfault.trans hf, hregs⟩

/-! ### Accesses while faulted (R205) -/

/-- The state with no fault recorded and all else as it is. -/
def State.withoutFault (s : State) : State :=
  { s with fault := false, cause := .none, freg := 0#4, faultCmd := 0#32 }

theorem fe_cmdWrite (s : State) (w : Word) : (cmdWrite s w).fe = s.fe := by
  cases hf : s.fault
  · rw [cmdWrite_of_no_fault hf, State.accept_fe]
  · rw [cmdWrite_of_fault hf]

/-- The FE registers after a TAG write, whether or not its fault is recorded (R62). -/
theorem fe_tagWrite (s : State) (i : RegIx) (x : Word) :
    (tagWrite s i x).fe =
      if TagCheck (s.limbs i) x then (s.setTag i (tagMag x) (tagNorm x)).fe else (s.clearTag i).fe := by
  obtain ⟨hc, e⟩ | ⟨hc, e⟩ := tagWrite_cases s i x <;> rw [e]
  · rw [if_pos hc]
  · rw [if_neg hc, State.raiseFault_fe]

/-- A recorded fault does not show in the FE registers a write leaves. -/
theorem fe_writeTarget_withoutFault {s t u : State} {v : BitVec 64} {r : Target} (ht : writeTarget s v r = .next t)
    (hu : writeTarget s.withoutFault v r = .next u) : t.fe = u.fe := by
  cases r with
  | id | version | param | status | faultCmd => cases ht; cases hu; rfl
  | cmd =>
    cases ht
    cases hu
    rw [State.respond_fe, State.respond_fe, fe_cmdWrite, fe_cmdWrite]
    rfl
  | limb i j part => cases ht; cases hu; cases part <;> rfl
  | tag i =>
    obtain rfl := eq_of_writeTarget_tag ht
    obtain rfl := eq_of_writeTarget_tag hu
    rw [State.respond_fe, State.respond_fe, fe_tagWrite, fe_tagWrite]
    rfl

theorem fe_hostStep_withoutFault {s t u : State} {a : HostAction} (ht : hostStep s a = .next t)
    (hu : hostStep s.withoutFault a = .next u) : t.fe = u.fe := by
  cases a with
  | reset => cases ht; cases hu; rfl
  | read off width =>
    cases hr : resolve off width <;> simp only [hostStep, hr] at ht hu
    all_goals cases ht; cases hu; rfl
  | write off width v =>
    cases hr : resolve off width <;> simp only [hostStep, hr] at ht hu
    · cases ht
      cases hu
      rfl
    · exact fe_writeTarget_withoutFault ht hu

/-- Settles O35: of the accesses a CMD write and a failed TAG write depend on FAULT, the first only in whether it issues
its word and the second only in whether it records its fault. -/
theorem faultedBlockDiscardsCommands : Obligations.FaultedBlockDiscardsCommands := by
  obtain ⟨hcmd, -⟩ := cmdWriteIssuesAndCompletes
  exact ⟨fun s v rest hf hm => (hcmd s v rest hm).1 hf, fun _ _ _ _ _ ht hu => fe_hostStep_withoutFault ht hu⟩

end Sys2Proof.Machine
end

section
/-!
Reset and hazards (spec/70_reset_and_hazards.md R230 to R233): the platform's reset, the block that waits, and the
sources a command reads before it writes.
-/

namespace Sys2Proof.Machine

/-! ### Sources before destination (R233) -/

/-- The register a command writes decides at most the register of its fault (R201), never whether there is one. -/
theorem firstFault_redirect_eq_none {s : State} {i : Instr} (d : RegIx) (h : firstFault s i = none) :
    firstFault s (redirect d i) = none := by
  cases i with
  | fadd _ a b =>
    obtain ⟨ha, hb, hm⟩ := firstFault_fadd_eq_none h
    simp [redirect, firstFault, ha, hb, Nat.not_lt.mpr hm]
  | fmul _ a b => exact h
  | fsqr _ a => exact h
  | fnorm _ a => exact h

theorem destOf_redirect (d : RegIx) (i : Instr) : destOf (redirect d i) = d := by cases i <;> rfl

/-- What a command writes is a function of its sources. -/
theorem result_redirect (s : State) (d : RegIx) (i : Instr) :
    resultLimbs s (redirect d i) = resultLimbs s i ∧ resultMag s (redirect d i) = resultMag s i ∧
      resultNorm (redirect d i) = resultNorm i := by
  cases i <;> exact ⟨rfl, rfl, rfl⟩

/-- A command without a fault writes the same result to whichever register it is sent. -/
theorem exec_redirect {s : State} {i : Instr} (d : RegIx) (h : firstFault s i = none) :
    exec (redirect d i) s = .next (s.writeFe d (resultLimbs s i) (resultMag s i) (resultNorm i)).complete := by
  obtain ⟨hlimbs, hmag, hnorm⟩ := result_redirect s d i
  rw [exec_of_firstFault_none (firstFault_redirect_eq_none d h), destOf_redirect, hlimbs, hmag, hnorm]

/-- Settles O26: both commands write one and the same result, which is computed on the state before the write. -/
theorem commandsReadBeforeWriting : Obligations.CommandsReadBeforeWriting := fun _ _ d h =>
  ⟨_, _, exec_of_firstFault_none h, exec_redirect d h, by simp⟩

/-! ### The platform's reset (R230) -/

/-- The reset of an idle block and of one with a command in flight is the same step. -/
theorem step_platformReset {s : State} {rest : List HostEvent} (h : HostMoves s .reset rest) :
    step s = .next (s.setHost rest).platformReset := step_host h

/-- No half of a limb counts as written after the reset (R38). -/
theorem unwritten_of_atReset {s : State} {i : RegIx} (h : s.feReg i = FeReg.atReset) (j : Fin 5) :
    ((s.feReg i).n[j]).loWritten = false ∧ ((s.feReg i).n[j]).hiWritten = false := by
  simp [h, FeReg.atReset, LimbCell.atReset]

/-- Settles O39. -/
theorem platformResetClears : Obligations.PlatformResetClears := by
  intro s rest h
  have hfe := State.feReg_platformReset (s.setHost rest)
  have hstatus : statusWord false false .none 0#4 = 0x00000000#32 := by decide
  exact ⟨_, step_platformReset h, fun i => ⟨tagCleared_of_atReset (hfe i), unwritten_of_atReset (hfe i)⟩,
    hstatus, rfl, rfl⟩

/-- Settles O56. -/
theorem platformResetKeepsOutside : Obligations.PlatformResetKeepsOutside := fun _ _ h =>
  ⟨_, step_platformReset h, rfl, rfl, rfl⟩

/-! ### Waiting (R231) -/

/-- Settles O7. -/
theorem idleBlockWaits : Obligations.IdleBlockWaits := fun _ => step_idle

end Sys2Proof.Machine
end
